-- ==== Sys2Proof/Word.lean ====
section
/-! DEFINITION. The plain types of CSGE: what the spec treats as bits, what it treats as an exact
rational, and the two constrained kinds of rational the configuration is built from (00_scope.md
rules R9, R10, R16). No byte, no address and no byte order: 20_memory.md rules R60, R65. -/

namespace Sys2Proof

/-- `cmd_op[7:0]`, the opcode of a command (30_encoding.md rule R83). -/
abbrev Opcode := BitVec 8

/-- `op[4:0]` of a format P command: a slot number (20_memory.md rule R60). -/
abbrev SlotNumber := BitVec 5

/-- `RNG[30:0]`, the noise shift register (10_state.md rule R34). -/
abbrev NoiseReg := BitVec 31

/-- A voltage: any exact rational (00_scope.md rule R9; 10_state.md rule R23). -/
abbrev Voltage := ℚ

/-- A resistance, a capacitance, or the result of a fitted function: a rational `>= 0`. A negative
component is not representable (10_state.md rule R22); 0 is the "unset" sentinel. -/
abbrev Component := { q : ℚ // 0 ≤ q }

/-- A positive rational, as the two naturals one below its numerator and denominator. It has no
other values, and `PosRat.exists_eq_val` (Laws/Config.lean) says it has them all. -/
structure PosRat where
  numPred : ℕ
  denPred : ℕ
  deriving DecidableEq, Repr, Inhabited

/-- The rational a `PosRat` stands for. -/
def PosRat.val (p : PosRat) : ℚ := (p.numPred + 1 : ℚ) / (p.denPred + 1)

end Sys2Proof
end

