-- ==== Sys2Proof/Config.lean ====
section
/-! DEFINITION. The configuration record `CFG` (00_scope.md rule R11): every constant the source
names and does not give (OPEN), as ONE opaque constant `Config.cfg` with no body, so that no proof
can see a value; the constants the source gives; and the seed the spec decides.

The constraints a configuration must meet (rule R14, rule R13's `>= 0`, rule R86's zero word) are
built into the fields: a maximum is stored as a minimum and a span `>= 0`, a strict order as a
positive gap, and so on. Every value of this type is well formed and every well-formed `CFG` is a
value of it (Laws/Config.lean proves both). This is the treatment `refuse` of
93_implementation_defined.md U1: "the configuration type carries the constraints". -/

namespace Sys2Proof

/-- A documented `[MIN, MAX]` range with `MIN <= MAX` (rule R14 (b)). -/
structure VoltageRange where
  /-- `X_VMIN` -/
  min : ℚ
  /-- `X_VMAX - X_VMIN` -/
  span : Component
  deriving DecidableEq, Repr, Inhabited

/-- `X_VMAX` of a range. -/
def VoltageRange.max (r : VoltageRange) : ℚ := r.min + r.span.val

/-- `PAYLOAD_CODEC` (30_encoding.md rule R86), OPEN: the width `PAY_W >= 3` and two total decode
functions, here as functions of the unsigned value of a NON-ZERO word (the all-zero word decodes
to 0, see `Config.decU` and `Config.decS` in Machine/Operands.lean). -/
structure Codec where
  /-- `PAY_W - 3` -/
  extraWidth : ℕ
  /-- `dec_u` of a non-zero word -/
  rawU : ℕ → Component
  /-- `dec_s` of a non-zero word -/
  rawS : ℕ → ℚ
  /-- which of several equally near words `enc_s` answers: rule R86 does not say -/
  tie : ℚ → ℕ
  deriving Inhabited

/-- `CFG` (rule R11). The field names follow the spec's. -/
structure Config where
  /-- `N_SUB >= 1`, sub-steps in one UPDATE (45_update_scheduler.md rule R222) -/
  nSub : ℕ+
  /-- `[OS_VMIN, OS_VMAX]` -/
  os : VoltageRange
  /-- `[SLF_VMIN, SLF_VMAX]` -/
  slf : VoltageRange
  /-- `[VCO_VMIN, VCO_VMAX]` -/
  vco : VoltageRange
  /-- `[NF_VMIN, NF_VMAX]` -/
  nf : VoltageRange
  /-- `[AD_VMIN, AD_VMAX]` -/
  ad : VoltageRange
  /-- `VCO_OFFSET` -/
  vcoOffset : ℚ
  /-- `NF_TH_LOW` -/
  nfThLow : ℚ
  /-- `NF_TH_HIGH - NF_TH_LOW` (rule R14 (c)) -/
  nfThGap : PosRat
  /-- `F_OS_CHG`, a fitted function: any total function with results `>= 0` (rule R13) -/
  fOsChg : Component → Component → Component
  /-- `F_OS_DIS` -/
  fOsDis : Component → Component → Component
  /-- `F_SLF_CHG` -/
  fSlfChg : Component → Component → Component
  /-- `F_SLF_DIS` -/
  fSlfDis : Component → Component → Component
  /-- `F_VCO_CHG` -/
  fVcoChg : Component → Component → Component
  /-- `F_VCO_DIS` -/
  fVcoDis : Component → Component → Component
  /-- `F_NF_CHG` -/
  fNfChg : Component → Component → Component
  /-- `F_NF_DIS` -/
  fNfDis : Component → Component → Component
  /-- `F_AD_CHG` -/
  fAdChg : Component → Component → Component
  /-- `F_AD_DIS` -/
  fAdDis : Component → Component → Component
  /-- `F_NOISE`, the fitted noise frequency -/
  fNoise : Component → Component
  /-- `NOISE_R_MIN > 0` (rule R14 (e)) -/
  noiseRMinPos : PosRat
  /-- `NOISE_R_MAX - NOISE_R_MIN` -/
  noiseRSpan : Component
  /-- `NOISE_COUNT_MAX >= 1` -/
  noiseCountMax : ℕ+
  /-- `OUT_CLIP_LOW` -/
  outClipLow : ℚ
  /-- `OUT_CENTER - OUT_CLIP_LOW` (rule R14 (d)) -/
  outCenterGap : PosRat
  /-- `OUT_CLIP_HIGH - OUT_CENTER` (rule R14 (d)) -/
  outClipHighSpan : Component
  /-- `PEAK_GAIN`, one constant (44_mixer_output.md rule R207) -/
  peakGain : ℚ
  /-- `POS_GAIN[0..44]` (rule R14 (g): 45 entries) -/
  posGain : Vector ℚ 45
  /-- `NEG_GAIN[0..44]` -/
  negGain : Vector ℚ 45
  /-- `FULL_SCALE >= 1` -/
  fullScale : ℕ+
  /-- `SAMPLE_RATE_RESET >= 1` -/
  sampleRateReset : ℕ+
  /-- `PAYLOAD_CODEC` -/
  codec : Codec
  /-- how many bits `SAMPLE_W` has beyond the fewest that hold every sample (30_encoding.md rule R97) -/
  sampleExtraWidth : ℕ
  deriving Inhabited

/-- The machine's configuration: OPEN, so an opaque constant. Every meaning is first written over
an arbitrary `c : Config` (the argument of 00_scope.md rule R7) and the machine is its instance at
`cfg`; a test takes a concrete configuration instead. -/
opaque Config.cfg : Config

/-- `NF_TH_HIGH` -/
def Config.nfThHigh (c : Config) : ℚ := c.nfThLow + c.nfThGap.val

/-- `NOISE_R_MIN` -/
def Config.noiseRMin (c : Config) : ℚ := c.noiseRMinPos.val

/-- `NOISE_R_MAX` -/
def Config.noiseRMax (c : Config) : ℚ := c.noiseRMin + c.noiseRSpan.val

/-- `OUT_CENTER` -/
def Config.outCenter (c : Config) : ℚ := c.outClipLow + c.outCenterGap.val

/-- `OUT_CLIP_HIGH` -/
def Config.outClipHigh (c : Config) : ℚ := c.outCenter + c.outClipHighSpan.val

/-- `PAY_W`, the width of `cmd_data` and of `rsp_aux` (30_encoding.md rule R86) -/
def Config.payW (c : Config) : ℕ := 3 + c.codec.extraWidth

/-- A payload word `cmd_data[PAY_W-1:0]`. -/
abbrev Payload (c : Config) := BitVec c.payW

/-- `RATE_NEVER = 10^-30`, GIVEN (rule R12). -/
def Config.rateNever : ℚ := 1 / 10 ^ 30

/-- `RATE_INSTANT = 10^30`, GIVEN (rule R12). -/
def Config.rateInstant : ℚ := 10 ^ 30

/-- `DUTY_COEF = 1/2`, GIVEN (rule R12). -/
def Config.dutyCoef : ℚ := 1 / 2

/-- `DUTY_FLOOR = 18/100`, GIVEN (rule R12). -/
def Config.dutyFloor : ℚ := 18 / 100

/-- `NOISE_SEED = 0`, decided by the spec (10_state.md rule R34, decision D9). -/
def Config.noiseSeed : NoiseReg := 0

end Sys2Proof
end

