-- ==== Sys2Proof/Syntax.lean ====
section
/-! DEFINITION. CSGE command set 1: one constructor of `Instr` per row of spec/opcode_table.json,
carrying the DECODED operand (30_encoding.md rule R86: "A model works on the decoded rationals and
takes them as the command's operand directly"), the 22 slots of the Parameter Store and the two
mode enumerations (10_state.md rules R21, R25). -/

namespace Sys2Proof

/-- Envelope modes (30_encoding.md rule R89), in the spec's numbering 0 to 3. -/
inductive EnvMode where
  | vco
  | oneShot
  | mixerOnly
  | vcoAltPolarity
  deriving DecidableEq, Repr, Inhabited

/-- VCO modes (30_encoding.md rule R90): 0 = INTERNAL, 1 = EXTERNAL. -/
inductive VcoMode where
  | internal
  | external
  deriving DecidableEq, Repr, Inhabited

/-- The 22 slots of the Parameter Store by name (10_state.md rule R21). -/
inductive Slot where
  | osRes | osCap | slfRes | slfCap | vcoRes | vcoCap | vcoVoltage | pitchVoltage
  | noiseClockRes | noiseFilterRes | noiseFilterCap | attackRes | decayRes | adCap
  | mixer | envMode | vcoMode | enableN | osExtV | slfExtV | vcoExtV | extEn
  deriving DecidableEq, Repr

/-- A slot's contents, tagged with its payload class (30_encoding.md rule R85). -/
inductive SlotValue where
  /-- class U -/
  | unsigned (r : Component)
  /-- class S -/
  | signed (v : Voltage)
  /-- class B3 -/
  | bits3 (b : BitVec 3)
  /-- class B2 -/
  | env (m : EnvMode)
  /-- class B1, `VCO_MODE` -/
  | vcoMode (m : VcoMode)
  /-- class B1, `ENABLE_N` -/
  | bit (b : Bool)
  deriving DecidableEq, Repr

/-- The commands of CSGE (30_encoding.md rule R84). -/
inductive Instr where
  /-- NOP, 0x00 (rule R240) -/
  | nop
  /-- INIT, 0x01 (rule R242) -/
  | init
  /-- TRIG, 0x02 (rule R244) -/
  | trig
  /-- SETSR, 0x03 (rules R246, R247) -/
  | setsr (n : ℕ)
  /-- UPDATE, 0x04 (rule R220) -/
  | update (n : ℕ)
  /-- SETP.OS_RES, 0x20 (rule R261) -/
  | setpOsRes (r : Component)
  /-- SETP.OS_CAP, 0x21 (rule R262) -/
  | setpOsCap (r : Component)
  /-- SETP.SLF_RES, 0x22 (rule R263) -/
  | setpSlfRes (r : Component)
  /-- SETP.SLF_CAP, 0x23 (rule R264) -/
  | setpSlfCap (r : Component)
  /-- SETP.VCO_RES, 0x24 (rule R265) -/
  | setpVcoRes (r : Component)
  /-- SETP.VCO_CAP, 0x25 (rule R266) -/
  | setpVcoCap (r : Component)
  /-- SETP.VCO_VOLTAGE, 0x26 (rule R267) -/
  | setpVcoVoltage (v : Voltage)
  /-- SETP.PITCH_VOLTAGE, 0x27 (rule R268) -/
  | setpPitchVoltage (v : Voltage)
  /-- SETP.NOISE_CLOCK_RES, 0x28 (rule R269) -/
  | setpNoiseClockRes (r : Component)
  /-- SETP.NOISE_FILTER_RES, 0x29 (rule R270) -/
  | setpNoiseFilterRes (r : Component)
  /-- SETP.NOISE_FILTER_CAP, 0x2A (rule R271) -/
  | setpNoiseFilterCap (r : Component)
  /-- SETP.ATTACK_RES, 0x2B (rule R272) -/
  | setpAttackRes (r : Component)
  /-- SETP.DECAY_RES, 0x2C (rule R273) -/
  | setpDecayRes (r : Component)
  /-- SETP.AD_CAP, 0x2D (rule R274) -/
  | setpAdCap (r : Component)
  /-- SETP.MIXER, 0x2E (rule R275) -/
  | setpMixer (b : BitVec 3)
  /-- SETP.ENV_MODE, 0x2F (rule R276) -/
  | setpEnvMode (m : EnvMode)
  /-- SETP.VCO_MODE, 0x30 (rule R277) -/
  | setpVcoMode (m : VcoMode)
  /-- SETP.ENABLE_N, 0x31 (rule R278) -/
  | setpEnableN (b : Bool)
  /-- SETP.OS_EXT_V, 0x32 (rule R279) -/
  | setpOsExtV (v : Voltage)
  /-- SETP.SLF_EXT_V, 0x33 (rule R280) -/
  | setpSlfExtV (v : Voltage)
  /-- SETP.VCO_EXT_V, 0x34 (rule R281) -/
  | setpVcoExtV (v : Voltage)
  /-- SETP.EXT_EN, 0x35 (rule R282) -/
  | setpExtEn (b : BitVec 3)
  deriving DecidableEq, Repr

end Sys2Proof
end

