-- ==== Sys2Proof/Machine/Operands.lean ====
section
/-! DEFINITION. Operand assembly: how a payload word becomes the value a command carries, by payload
class, and back (30_encoding.md rules R85, R86, R87, R89, R90, R97). -/

namespace Sys2Proof

/-- `dec_u`: a rational `>= 0` for every word, 0 for the all-zero word (rule R86). -/
def Config.decU (c : Config) (d : Payload c) : Component :=
  if d.toNat = 0 then ⟨0, le_refl 0⟩ else c.codec.rawU d.toNat

/-- `dec_s`: a rational for every word, 0 for the all-zero word (rule R86). -/
def Config.decS (c : Config) (d : Payload c) : Voltage :=
  if d.toNat = 0 then 0 else c.codec.rawS d.toNat

/-- Every payload word, in ascending order. -/
def Config.words (c : Config) : List (Payload c) :=
  (List.range (2 ^ c.payW)).map (BitVec.ofNat c.payW)

/-- The first word that `dec_u` reads as `v`, if any. -/
def Config.wordU? (c : Config) (v : Component) : Option (Payload c) :=
  c.words.find? fun d => c.decU d == v

/-- The first word that `dec_s` reads as `v`, if any. -/
def Config.wordS? (c : Config) (v : Voltage) : Option (Payload c) :=
  c.words.find? fun d => c.decS d == v

/-- The words whose value is nearest to `v`. -/
def Config.nearestWords (c : Config) (v : Voltage) : List (Payload c) :=
  c.words.filter fun d => c.words.all fun e => decide (|c.decS d - v| ≤ |c.decS e - v|)

/-- `enc_s` (rule R86): "a right inverse where the value is representable; otherwise it saturates to
the nearest representable value". Which of several equally near words it answers is open
(`Codec.tie`, log entry 4). -/
def Config.encS (c : Config) (v : Voltage) : Payload c :=
  (c.nearestWords v).getD (c.codec.tie v % (c.nearestWords v).length) 0

/-- The integer operand of format N: the whole payload read as unsigned (rule R87). -/
def Config.decN (c : Config) (d : Payload c) : ℕ := d.toNat

/-- Class B3: `cmd_data[2:0]` (rules R85, R87). -/
def Config.decB3 (c : Config) (d : Payload c) : BitVec 3 := d.extractLsb' 0 3

/-- Class B2: `cmd_data[1:0]` (rules R85, R87). -/
def Config.decB2 (c : Config) (d : Payload c) : BitVec 2 := d.extractLsb' 0 2

/-- Class B1: `cmd_data[0]` (rules R85, R87). -/
def Config.decB1 (c : Config) (d : Payload c) : Bool := d.getLsbD 0

/-- The envelope mode a 2-bit field stands for (rule R89). -/
def EnvMode.ofBits (b : BitVec 2) : EnvMode :=
  match b.toFin with
  | 0 => .vco
  | 1 => .oneShot
  | 2 => .mixerOnly
  | 3 => .vcoAltPolarity

/-- The 2-bit field of an envelope mode (rule R89). -/
def EnvMode.toBits : EnvMode → BitVec 2
  | .vco => 0#2
  | .oneShot => 1#2
  | .mixerOnly => 2#2
  | .vcoAltPolarity => 3#2

/-- The VCO mode a bit stands for (rule R90). -/
def VcoMode.ofBit (b : Bool) : VcoMode := if b then .external else .internal

/-- The bit of a VCO mode (rule R90). -/
def VcoMode.toBit : VcoMode → Bool
  | .internal => false
  | .external => true

end Sys2Proof
end

