-- ==== Sys2Proof/WellFormed.lean ====
section
/-! DEFINITION. Well-formedness. Of a configuration (00_scope.md rule R14): the check on the plain
values, which every `Config` meets by construction. Of a command: its operand has a payload word
(30_encoding.md rules R83, R85, R86, R87). -/

namespace Sys2Proof

/-- The values of `CFG` that rule R14 constrains, as plain data. -/
structure ConfigValues where
  nSub : ℕ
  osMin : ℚ
  osMax : ℚ
  slfMin : ℚ
  slfMax : ℚ
  vcoMin : ℚ
  vcoMax : ℚ
  nfMin : ℚ
  nfMax : ℚ
  adMin : ℚ
  adMax : ℚ
  nfThLow : ℚ
  nfThHigh : ℚ
  outClipLow : ℚ
  outCenter : ℚ
  outClipHigh : ℚ
  noiseRMin : ℚ
  noiseRMax : ℚ
  fullScale : ℕ
  sampleRateReset : ℕ
  noiseCountMax : ℕ
  posGain : List ℚ
  negGain : List ℚ
  deriving DecidableEq, Repr

/-- Rule R14, (a) to (g). -/
def ConfigValues.wellFormed (v : ConfigValues) : Bool :=
  decide (1 ≤ v.nSub) &&
  (decide (v.osMin ≤ v.osMax) && decide (v.slfMin ≤ v.slfMax) && decide (v.vcoMin ≤ v.vcoMax) &&
    decide (v.nfMin ≤ v.nfMax) && decide (v.adMin ≤ v.adMax)) &&
  decide (v.nfThLow < v.nfThHigh) &&
  (decide (v.outClipLow < v.outCenter) && decide (v.outCenter ≤ v.outClipHigh)) &&
  (decide (0 < v.noiseRMin) && decide (v.noiseRMin ≤ v.noiseRMax)) &&
  (decide (1 ≤ v.fullScale) && decide (1 ≤ v.sampleRateReset) && decide (1 ≤ v.noiseCountMax)) &&
  (v.posGain.length == 45 && v.negGain.length == 45)

/-- The constrained values of a configuration. -/
def Config.values (c : Config) : ConfigValues where
  nSub := c.nSub
  osMin := c.os.min
  osMax := c.os.max
  slfMin := c.slf.min
  slfMax := c.slf.max
  vcoMin := c.vco.min
  vcoMax := c.vco.max
  nfMin := c.nf.min
  nfMax := c.nf.max
  adMin := c.ad.min
  adMax := c.ad.max
  nfThLow := c.nfThLow
  nfThHigh := c.nfThHigh
  outClipLow := c.outClipLow
  outCenter := c.outCenter
  outClipHigh := c.outClipHigh
  noiseRMin := c.noiseRMin
  noiseRMax := c.noiseRMax
  fullScale := c.fullScale
  sampleRateReset := c.sampleRateReset
  noiseCountMax := c.noiseCountMax
  posGain := c.posGain.toList
  negGain := c.negGain.toList

/-- Some payload word decodes to `v` as class U. -/
def Config.representableU (c : Config) (v : Component) : Bool := (c.wordU? v).isSome

/-- Some payload word decodes to `v` as class S. -/
def Config.representableS (c : Config) (v : Voltage) : Bool := (c.wordS? v).isSome

/-- A command that the port of configuration `c` can carry: its rational operand is some word's
value, its integer operand fits `PAY_W` bits. The operands of classes B1, B2 and B3 are as wide as
their fields, so always fit (rule R87). -/
def Instr.wellFormed (c : Config) : Instr → Bool
  | .nop | .init | .trig => true
  | .setsr n | .update n => decide (n < 2 ^ c.payW)
  | .setpOsRes r | .setpOsCap r | .setpSlfRes r | .setpSlfCap r | .setpVcoRes r | .setpVcoCap r
  | .setpNoiseClockRes r | .setpNoiseFilterRes r | .setpNoiseFilterCap r | .setpAttackRes r
  | .setpDecayRes r | .setpAdCap r => c.representableU r
  | .setpVcoVoltage v | .setpPitchVoltage v | .setpOsExtV v | .setpSlfExtV v
  | .setpVcoExtV v => c.representableS v
  | .setpMixer _ | .setpEnvMode _ | .setpVcoMode _ | .setpEnableN _ | .setpExtEn _ => true

end Sys2Proof
end

