-- ==== Sys2Proof/Decode.lean ====
section
/-! DEFINITION. The decoder, total on every opcode and payload and refusing the reserved encodings by
name, and the encoder (30_encoding.md rules R83 to R92; spec/opcode_table.json). -/

namespace Sys2Proof

/-- A command on the port: the pair (`cmd_op`, `cmd_data`), transferred as one indivisible unit
(30_encoding.md rule R80). -/
structure Command (c : Config) where
  op : Opcode
  data : Payload c
  deriving DecidableEq, Repr

/-- Why a command has no decoding. -/
inductive DecodeError where
  /-- opcodes 0x05 to 0x1F and 0x40 to 0xFF (rule R91) -/
  | reservedOpcode (op : Opcode)
  /-- slots 0x16 to 0x1F, opcodes 0x36 to 0x3F (rule R92) -/
  | reservedSlot (slot : SlotNumber)
  deriving DecidableEq, Repr

/-- Format P: the slot selects the command, its class the operand (rules R84, R85). -/
def decodeSetp (c : Config) (slot : SlotNumber) (d : Payload c) : Except DecodeError Instr :=
  match slot.toNat with
  | 0x00 => .ok (.setpOsRes (c.decU d))
  | 0x01 => .ok (.setpOsCap (c.decU d))
  | 0x02 => .ok (.setpSlfRes (c.decU d))
  | 0x03 => .ok (.setpSlfCap (c.decU d))
  | 0x04 => .ok (.setpVcoRes (c.decU d))
  | 0x05 => .ok (.setpVcoCap (c.decU d))
  | 0x06 => .ok (.setpVcoVoltage (c.decS d))
  | 0x07 => .ok (.setpPitchVoltage (c.decS d))
  | 0x08 => .ok (.setpNoiseClockRes (c.decU d))
  | 0x09 => .ok (.setpNoiseFilterRes (c.decU d))
  | 0x0A => .ok (.setpNoiseFilterCap (c.decU d))
  | 0x0B => .ok (.setpAttackRes (c.decU d))
  | 0x0C => .ok (.setpDecayRes (c.decU d))
  | 0x0D => .ok (.setpAdCap (c.decU d))
  | 0x0E => .ok (.setpMixer (c.decB3 d))
  | 0x0F => .ok (.setpEnvMode (EnvMode.ofBits (c.decB2 d)))
  | 0x10 => .ok (.setpVcoMode (VcoMode.ofBit (c.decB1 d)))
  | 0x11 => .ok (.setpEnableN (c.decB1 d))
  | 0x12 => .ok (.setpOsExtV (c.decS d))
  | 0x13 => .ok (.setpSlfExtV (c.decS d))
  | 0x14 => .ok (.setpVcoExtV (c.decS d))
  | 0x15 => .ok (.setpExtEn (c.decB3 d))
  | _ => .error (.reservedSlot slot)

/-- Formats Z and N (rules R83, R84). -/
def decodeControl (c : Config) (op : Opcode) (d : Payload c) : Except DecodeError Instr :=
  match op.toNat with
  | 0x00 => .ok .nop
  | 0x01 => .ok .init
  | 0x02 => .ok .trig
  | 0x03 => .ok (.setsr (c.decN d))
  | 0x04 => .ok (.update (c.decN d))
  | _ => .error (.reservedOpcode op)

/-- The decoder: format P is told by `op[7:5] = 0b001` (rule R83). -/
def decode (c : Config) (w : Command c) : Except DecodeError Instr :=
  if w.op.extractLsb' 5 3 = 0b001#3 then decodeSetp c (w.op.extractLsb' 0 5) w.data
  else decodeControl c w.op w.data

/-- The opcode of a command (rule R84). -/
def Instr.opcode : Instr → Opcode
  | .nop => 0x00#8
  | .init => 0x01#8
  | .trig => 0x02#8
  | .setsr _ => 0x03#8
  | .update _ => 0x04#8
  | .setpOsRes _ => 0x20#8
  | .setpOsCap _ => 0x21#8
  | .setpSlfRes _ => 0x22#8
  | .setpSlfCap _ => 0x23#8
  | .setpVcoRes _ => 0x24#8
  | .setpVcoCap _ => 0x25#8
  | .setpVcoVoltage _ => 0x26#8
  | .setpPitchVoltage _ => 0x27#8
  | .setpNoiseClockRes _ => 0x28#8
  | .setpNoiseFilterRes _ => 0x29#8
  | .setpNoiseFilterCap _ => 0x2A#8
  | .setpAttackRes _ => 0x2B#8
  | .setpDecayRes _ => 0x2C#8
  | .setpAdCap _ => 0x2D#8
  | .setpMixer _ => 0x2E#8
  | .setpEnvMode _ => 0x2F#8
  | .setpVcoMode _ => 0x30#8
  | .setpEnableN _ => 0x31#8
  | .setpOsExtV _ => 0x32#8
  | .setpSlfExtV _ => 0x33#8
  | .setpVcoExtV _ => 0x34#8
  | .setpExtEn _ => 0x35#8

/-- The payload word of a command: the first word of its operand's value, the integer itself, or
the mode bits extended with zeros; a format Z command gets the all-zero word, and so does an
operand no word stands for (an ill-formed command). -/
def Instr.payload (c : Config) : Instr → Payload c
  | .nop | .init | .trig => 0
  | .setsr n | .update n => BitVec.ofNat c.payW n
  | .setpOsRes r | .setpOsCap r | .setpSlfRes r | .setpSlfCap r | .setpVcoRes r | .setpVcoCap r
  | .setpNoiseClockRes r | .setpNoiseFilterRes r | .setpNoiseFilterCap r | .setpAttackRes r
  | .setpDecayRes r | .setpAdCap r => (c.wordU? r).getD 0
  | .setpVcoVoltage v | .setpPitchVoltage v | .setpOsExtV v | .setpSlfExtV v
  | .setpVcoExtV v => (c.wordS? v).getD 0
  | .setpMixer b | .setpExtEn b => b.setWidth c.payW
  | .setpEnvMode m => m.toBits.setWidth c.payW
  | .setpVcoMode m => (BitVec.ofBool m.toBit).setWidth c.payW
  | .setpEnableN b => (BitVec.ofBool b).setWidth c.payW

/-- The encoder. -/
def encode (c : Config) (i : Instr) : Command c := ⟨i.opcode, i.payload c⟩

/-- A command as one number, numbered as spec/opcode_table.json numbers bits: `cmd_op` is bits 7..0
and `cmd_data` counts on from bit 8; every bit from `nbits` up is 0. -/
def commandOfWord (c : Config) (nbits w : ℕ) : Command c :=
  ⟨BitVec.ofNat 8 (w % 2 ^ nbits), BitVec.ofNat c.payW (w % 2 ^ nbits / 256)⟩

/-- The instruction the decoder reads from the command whose bits are `w` (rule R83). -/
def decodeTableWord (nbits w : ℕ) : Option Instr :=
  match decode Config.cfg (commandOfWord Config.cfg nbits w) with
  | .ok i => some i
  | .error _ => none

end Sys2Proof
end

