-- ==== Sys2Proof/Machine/State.lean ====
section
/-! DEFINITION. The architectural state of one CSGE instance (10_state.md rule R20), the response
port's held values (30_encoding.md rule R82), the port inputs still to be taken (the model's own
field), the reasons a step can stop, and the state after reset (70_reset_and_hazards.md rule R331). -/

namespace Sys2Proof.Machine

/-- No constructor: CSGE raises no exception and has no fault state (60_exceptions.md rule R300). -/
inductive Fault where
  deriving DecidableEq, Repr

/-- Why a step answers with no state. -/
inductive Refusal where
  /-- Raised by `exec` for an instruction that has no meaning yet; no arm of this model raises it.
  Safe: nothing is claimed of the instruction. -/
  | notModelled (mnemonic : String)
  /-- Raised by `step` for a command with a reserved opcode or a reserved slot (30_encoding.md rules
  R91, R92: "A model should refuse a reserved opcode rather than give it the no-op meaning";
  93_implementation_defined.md U8). Safe: the hardware goes on and the model claims nothing of it. -/
  | reservedEncoding (e : DecodeError)
  deriving DecidableEq, Repr

/-- The Parameter Store: 22 slots (10_state.md rule R21). -/
structure Params where
  /-- slot 0x00 `OS_RES` -/
  osRes : Component
  /-- slot 0x01 `OS_CAP` -/
  osCap : Component
  /-- slot 0x02 `SLF_RES` -/
  slfRes : Component
  /-- slot 0x03 `SLF_CAP` -/
  slfCap : Component
  /-- slot 0x04 `VCO_RES` -/
  vcoRes : Component
  /-- slot 0x05 `VCO_CAP` -/
  vcoCap : Component
  /-- slot 0x06 `VCO_VOLTAGE` -/
  vcoVoltage : Voltage
  /-- slot 0x07 `PITCH_VOLTAGE` -/
  pitchVoltage : Voltage
  /-- slot 0x08 `NOISE_CLOCK_RES` -/
  noiseClockRes : Component
  /-- slot 0x09 `NOISE_FILTER_RES` -/
  noiseFilterRes : Component
  /-- slot 0x0A `NOISE_FILTER_CAP` -/
  noiseFilterCap : Component
  /-- slot 0x0B `ATTACK_RES` -/
  attackRes : Component
  /-- slot 0x0C `DECAY_RES` -/
  decayRes : Component
  /-- slot 0x0D `AD_CAP` -/
  adCap : Component
  /-- slot 0x0E `MIXER`: bit 0 VCO enable, bit 1 SLF enable, bit 2 noise enable -/
  mixer : BitVec 3
  /-- slot 0x0F `ENV_MODE` -/
  envMode : EnvMode
  /-- slot 0x10 `VCO_MODE` -/
  vcoMode : VcoMode
  /-- slot 0x11 `ENABLE_N`: inverted enable, 1 = output disabled -/
  enableN : Bool
  /-- slot 0x12 `OS_EXT_V` -/
  osExtV : Voltage
  /-- slot 0x13 `SLF_EXT_V` -/
  slfExtV : Voltage
  /-- slot 0x14 `VCO_EXT_V` -/
  vcoExtV : Voltage
  /-- slot 0x15 `EXT_EN`: override enables, bit 0 one-shot, bit 1 SLF, bit 2 VCO -/
  extEn : BitVec 3
  deriving DecidableEq, Repr

/-- The CircuitState (10_state.md rules R30, R32 to R35): five capacitor voltages, five flip-flops,
the noise register and the noise counter. -/
structure CircuitState where
  /-- `OS_V` -/
  osV : Voltage
  /-- `SLF_V` -/
  slfV : Voltage
  /-- `VCO_V` -/
  vcoV : Voltage
  /-- `NF_V` -/
  nfV : Voltage
  /-- `AD_V` -/
  adV : Voltage
  /-- `OS_RUN` -/
  osRun : Bool
  /-- `SLF_FF` -/
  slfFf : Bool
  /-- `VCO_FF` -/
  vcoFf : Bool
  /-- `VCO_ALT` -/
  vcoAlt : Bool
  /-- `FNOISE_FF` -/
  fnoiseFf : Bool
  /-- `RNG` -/
  rng : NoiseReg
  /-- `NCNT` -/
  ncnt : ℤ
  deriving DecidableEq, Repr

/-- The response port (30_encoding.md rules R80, R82, R97): the integer and the rational themselves;
their wire words are `Output.samplePort` and `Output.auxPort` of Machine/Output.lean. -/
structure Response where
  /-- `rsp_valid`: the last step completed an UPDATE -/
  valid : Bool
  /-- `rsp_sample`, held between responses -/
  sample : ℤ
  /-- `rsp_aux`, held between responses -/
  aux : Voltage
  deriving DecidableEq, Repr

/-- What the host presents at the ports, one item a step (30_encoding.md rules R80, R81). -/
inductive PortInput where
  /-- `cmd_valid` with `cmd_op` and `cmd_data` -/
  | command (w : Command Config.cfg)
  /-- `rst` (70_reset_and_hazards.md rule R330) -/
  | rst
  deriving DecidableEq, Repr

/-- The machine's state. -/
structure State where
  /-- the Parameter Store -/
  params : Params
  /-- `SAMPLE_RATE`, a positive integer: 0 can never be stored (10_state.md rule R27) -/
  sampleRate : ℕ+
  /-- the CircuitState -/
  circuit : CircuitState
  /-- the response port's registers -/
  rsp : Response
  /-- THE MODEL'S OWN FIELD: the port inputs the host still presents, in order (log entry 3) -/
  inputs : List PortInput
  deriving DecidableEq, Repr

/-- The Parameter Store after power-on reset (10_state.md rule R29): all components unset, all
voltages, enables and modes 0. -/
def Params.reset : Params where
  osRes := ⟨0, le_refl 0⟩
  osCap := ⟨0, le_refl 0⟩
  slfRes := ⟨0, le_refl 0⟩
  slfCap := ⟨0, le_refl 0⟩
  vcoRes := ⟨0, le_refl 0⟩
  vcoCap := ⟨0, le_refl 0⟩
  vcoVoltage := 0
  pitchVoltage := 0
  noiseClockRes := ⟨0, le_refl 0⟩
  noiseFilterRes := ⟨0, le_refl 0⟩
  noiseFilterCap := ⟨0, le_refl 0⟩
  attackRes := ⟨0, le_refl 0⟩
  decayRes := ⟨0, le_refl 0⟩
  adCap := ⟨0, le_refl 0⟩
  mixer := 0#3
  envMode := .vco
  vcoMode := .internal
  enableN := false
  osExtV := 0
  slfExtV := 0
  vcoExtV := 0
  extEn := 0#3

/-- The CircuitState after power-on reset (10_state.md rule R37). -/
def CircuitState.reset (c : Config) : CircuitState where
  osV := c.os.min
  slfV := c.slf.min
  vcoV := c.vco.min
  nfV := c.nf.min
  adV := c.ad.min
  osRun := false
  slfFf := false
  vcoFf := false
  vcoAlt := false
  fnoiseFf := false
  rng := Config.noiseSeed
  ncnt := 0

/-- The response port after reset: nothing valid, both held values 0 (30_encoding.md rule R82). -/
def Response.reset : Response := ⟨false, 0, 0⟩

/-- The machine right after power-on reset (70_reset_and_hazards.md rules R330, R331, R333): idle,
no command pending. -/
def State.reset : State where
  params := Params.reset
  sampleRate := Config.cfg.sampleRateReset
  circuit := CircuitState.reset Config.cfg
  rsp := Response.reset
  inputs := []

end Sys2Proof.Machine
end

