-- ==== Sys2Proof/Machine/Ops.lean ====
section
/-! DEFINITION. The named operations every meaning is written over: the arithmetic primitives of
00_scope.md rule R17, the capacitor movement and the external override that the stages share, the
reads and writes of the Parameter Store, and the port side of a step. CSGE takes no exception and
returns from none (60_exceptions.md rules R300, R304, R305), so there is no such operation here. -/

namespace Sys2Proof.Machine

/-! ### Arithmetic primitives (00_scope.md rule R17) -/

/-- `clamp(x, lo, hi) = min(max(x, lo), hi)`. -/
def clamp (x lo hi : ℚ) : ℚ := min (max x lo) hi

/-- `trunc(x)`: the fractional part discarded, rounding toward zero. -/
def trunc (x : ℚ) : ℤ := if 0 ≤ x then ⌊x⌋ else ⌈x⌉

/-! ### What the stages share -/

/-- One capacitor movement, clamped to the stage's range: up by the charge step or down by the
discharge step (41_oscillators.md rule R140; rules R143, R146; 42_noise.md rule R178). -/
def moveCapacitor (r : VoltageRange) (charging : Bool) (v chg dis : ℚ) : ℚ :=
  if charging then clamp (v + chg) r.min r.max else clamp (v - dis) r.min r.max

/-- The external override (41_oscillators.md rule R141), as the pair (register, effective voltage):
under override the register keeps its value and the external voltage is used as it stands; else
both are the internally updated value. -/
def withOverride (override : Bool) (ext old updated : ℚ) : ℚ × ℚ :=
  if override then (old, ext) else (updated, updated)

/-- `P[EXT_EN][0]`: the one-shot's override enable. -/
def Params.osOverride (p : Params) : Bool := p.extEn.getLsbD 0

/-- `P[EXT_EN][1]`: the SLF's override enable. -/
def Params.slfOverride (p : Params) : Bool := p.extEn.getLsbD 1

/-- `P[EXT_EN][2]`: the VCO's override enable. -/
def Params.vcoOverride (p : Params) : Bool := p.extEn.getLsbD 2

/-! ### The Parameter Store (20_memory.md rules R60, R67) -/

/-- `P[s]`: the contents of slot `s` (00_scope.md rule R17). -/
def Params.read (p : Params) : Slot → SlotValue
  | .osRes => .unsigned p.osRes
  | .osCap => .unsigned p.osCap
  | .slfRes => .unsigned p.slfRes
  | .slfCap => .unsigned p.slfCap
  | .vcoRes => .unsigned p.vcoRes
  | .vcoCap => .unsigned p.vcoCap
  | .vcoVoltage => .signed p.vcoVoltage
  | .pitchVoltage => .signed p.pitchVoltage
  | .noiseClockRes => .unsigned p.noiseClockRes
  | .noiseFilterRes => .unsigned p.noiseFilterRes
  | .noiseFilterCap => .unsigned p.noiseFilterCap
  | .attackRes => .unsigned p.attackRes
  | .decayRes => .unsigned p.decayRes
  | .adCap => .unsigned p.adCap
  | .mixer => .bits3 p.mixer
  | .envMode => .env p.envMode
  | .vcoMode => .vcoMode p.vcoMode
  | .enableN => .bit p.enableN
  | .osExtV => .signed p.osExtV
  | .slfExtV => .signed p.slfExtV
  | .vcoExtV => .signed p.vcoExtV
  | .extEn => .bits3 p.extEn

/-- The slot numbers 0x00 to 0x15 (10_state.md rule R21). -/
def slotNumber : Slot → SlotNumber
  | .osRes => 0x00#5
  | .osCap => 0x01#5
  | .slfRes => 0x02#5
  | .slfCap => 0x03#5
  | .vcoRes => 0x04#5
  | .vcoCap => 0x05#5
  | .vcoVoltage => 0x06#5
  | .pitchVoltage => 0x07#5
  | .noiseClockRes => 0x08#5
  | .noiseFilterRes => 0x09#5
  | .noiseFilterCap => 0x0A#5
  | .attackRes => 0x0B#5
  | .decayRes => 0x0C#5
  | .adCap => 0x0D#5
  | .mixer => 0x0E#5
  | .envMode => 0x0F#5
  | .vcoMode => 0x10#5
  | .enableN => 0x11#5
  | .osExtV => 0x12#5
  | .slfExtV => 0x13#5
  | .vcoExtV => 0x14#5
  | .extEn => 0x15#5

/-- The slot a command names and the value it carries there: some for the 22 SETP commands. -/
def slotWrite? : Instr → Option (Slot × SlotValue)
  | .nop | .init | .trig | .setsr _ | .update _ => none
  | .setpOsRes r => some (.osRes, .unsigned r)
  | .setpOsCap r => some (.osCap, .unsigned r)
  | .setpSlfRes r => some (.slfRes, .unsigned r)
  | .setpSlfCap r => some (.slfCap, .unsigned r)
  | .setpVcoRes r => some (.vcoRes, .unsigned r)
  | .setpVcoCap r => some (.vcoCap, .unsigned r)
  | .setpVcoVoltage v => some (.vcoVoltage, .signed v)
  | .setpPitchVoltage v => some (.pitchVoltage, .signed v)
  | .setpNoiseClockRes r => some (.noiseClockRes, .unsigned r)
  | .setpNoiseFilterRes r => some (.noiseFilterRes, .unsigned r)
  | .setpNoiseFilterCap r => some (.noiseFilterCap, .unsigned r)
  | .setpAttackRes r => some (.attackRes, .unsigned r)
  | .setpDecayRes r => some (.decayRes, .unsigned r)
  | .setpAdCap r => some (.adCap, .unsigned r)
  | .setpMixer b => some (.mixer, .bits3 b)
  | .setpEnvMode m => some (.envMode, .env m)
  | .setpVcoMode m => some (.vcoMode, .vcoMode m)
  | .setpEnableN b => some (.enableN, .bit b)
  | .setpOsExtV v => some (.osExtV, .signed v)
  | .setpSlfExtV v => some (.slfExtV, .signed v)
  | .setpVcoExtV v => some (.vcoExtV, .signed v)
  | .setpExtEn b => some (.extEn, .bits3 b)

/-- `P[slot] <- v`, one whole slot: the Parameter Store replaced by one that differs in that slot
(47_commands_setp.md rule R260). Nothing else is touched (20_memory.md rule R68). -/
def State.setParams (s : State) (p : Params) : State := { s with params := p }

/-- `SAMPLE_RATE <- n`. -/
def State.setSampleRate (s : State) (n : ℕ+) : State := { s with sampleRate := n }

/-- The CircuitState replaced. -/
def State.setCircuit (s : State) (k : CircuitState) : State := { s with circuit := k }

/-- A response: `rsp_valid` pulses and the pair is held (30_encoding.md rules R80, R82). -/
def State.respond (s : State) (sample : ℤ) (aux : Voltage) : State :=
  { s with rsp := ⟨true, sample, aux⟩ }

/-! ### The ports (30_encoding.md rules R80 to R82) -/

/-- `rsp_valid` falls, the held values stay, and `rest` is what the host still presents. -/
def State.accept (s : State) (rest : List PortInput) : State :=
  { s with rsp := { s.rsp with valid := false }, inputs := rest }

/-- Nothing is presented: the engine stays idle and all state survives (60_exceptions.md rule R308);
only the one-cycle response pulse is over (30_encoding.md rule R80). -/
def State.idle (s : State) : State := s.accept []

/-- `rst`: the whole block is reset (70_reset_and_hazards.md rule R330); what the host presents
next is not the block's to reset. -/
def State.powerOnReset (rest : List PortInput) : State := { State.reset with inputs := rest }

/-- The machine with a command placed where the next step takes it: first at the port. -/
def State.present (s : State) (w : Command Config.cfg) : State :=
  { s with inputs := .command w :: s.inputs }

end Sys2Proof.Machine
end

