-- ==== Sys2Proof/Machine/Control.lean ====
section
/-! DEFINITION. The control commands NOP, INIT, TRIG and SETSR (46_commands_control.md). -/

namespace Sys2Proof.Machine

/-- NOP (rule R240): nothing. -/
def execNop (s : State) : Host.Outcome State Fault Refusal := .next s

/-- INIT over any configuration (rule R242): the CircuitState re-initialised and `VCO_MODE` made
INTERNAL; no other slot and not SAMPLE_RATE (10_state.md rule R29). -/
def State.initialised (c : Config) (s : State) : State :=
  (s.setCircuit
    { osV := c.os.min, slfV := c.slf.min, vcoV := c.vco.min, nfV := c.nf.min, adV := c.ad.min
      osRun := false, slfFf := false, vcoFf := false, vcoAlt := false, fnoiseFf := false
      rng := Config.noiseSeed
      ncnt := 0 }).setParams
    { s.params with vcoMode := .internal }

/-- INIT (rule R242). -/
def execInit (s : State) : Host.Outcome State Fault Refusal := .next (s.initialised Config.cfg)

/-- TRIG (rule R244): `OS_RUN <- 1`, at once and whatever the voltage. -/
def execTrig (s : State) : Host.Outcome State Fault Refusal :=
  .next (s.setCircuit { s.circuit with osRun := true })

/-- SETSR (rules R246, R247): a positive rate is stored, 0 is ignored. -/
def execSetsr (n : ℕ) (s : State) : Host.Outcome State Fault Refusal :=
  if h : 0 < n then .next (s.setSampleRate ⟨n, h⟩) else .next s

end Sys2Proof.Machine
end

