-- ==== Sys2Proof/Machine/Setp.lean ====
section
/-! DEFINITION. The 22 parameter setters (47_commands_setp.md rule R260: `P[slot] <- val`, whole,
atomic, for every value, with no other effect). -/

namespace Sys2Proof.Machine

/-- SETP.OS_RES (rule R261). -/
def execSetpOsRes (r : Component) (s : State) : Host.Outcome State Fault Refusal :=
  .next (s.setParams { s.params with osRes := r })

/-- SETP.OS_CAP (rule R262). -/
def execSetpOsCap (r : Component) (s : State) : Host.Outcome State Fault Refusal :=
  .next (s.setParams { s.params with osCap := r })

/-- SETP.SLF_RES (rule R263). -/
def execSetpSlfRes (r : Component) (s : State) : Host.Outcome State Fault Refusal :=
  .next (s.setParams { s.params with slfRes := r })

/-- SETP.SLF_CAP (rule R264). -/
def execSetpSlfCap (r : Component) (s : State) : Host.Outcome State Fault Refusal :=
  .next (s.setParams { s.params with slfCap := r })

/-- SETP.VCO_RES (rule R265). -/
def execSetpVcoRes (r : Component) (s : State) : Host.Outcome State Fault Refusal :=
  .next (s.setParams { s.params with vcoRes := r })

/-- SETP.VCO_CAP (rule R266). -/
def execSetpVcoCap (r : Component) (s : State) : Host.Outcome State Fault Refusal :=
  .next (s.setParams { s.params with vcoCap := r })

/-- SETP.VCO_VOLTAGE (rule R267). -/
def execSetpVcoVoltage (v : Voltage) (s : State) : Host.Outcome State Fault Refusal :=
  .next (s.setParams { s.params with vcoVoltage := v })

/-- SETP.PITCH_VOLTAGE (rule R268). -/
def execSetpPitchVoltage (v : Voltage) (s : State) : Host.Outcome State Fault Refusal :=
  .next (s.setParams { s.params with pitchVoltage := v })

/-- SETP.NOISE_CLOCK_RES (rule R269). -/
def execSetpNoiseClockRes (r : Component) (s : State) : Host.Outcome State Fault Refusal :=
  .next (s.setParams { s.params with noiseClockRes := r })

/-- SETP.NOISE_FILTER_RES (rule R270). -/
def execSetpNoiseFilterRes (r : Component) (s : State) : Host.Outcome State Fault Refusal :=
  .next (s.setParams { s.params with noiseFilterRes := r })

/-- SETP.NOISE_FILTER_CAP (rule R271). -/
def execSetpNoiseFilterCap (r : Component) (s : State) : Host.Outcome State Fault Refusal :=
  .next (s.setParams { s.params with noiseFilterCap := r })

/-- SETP.ATTACK_RES (rule R272). -/
def execSetpAttackRes (r : Component) (s : State) : Host.Outcome State Fault Refusal :=
  .next (s.setParams { s.params with attackRes := r })

/-- SETP.DECAY_RES (rule R273). -/
def execSetpDecayRes (r : Component) (s : State) : Host.Outcome State Fault Refusal :=
  .next (s.setParams { s.params with decayRes := r })

/-- SETP.AD_CAP (rule R274). -/
def execSetpAdCap (r : Component) (s : State) : Host.Outcome State Fault Refusal :=
  .next (s.setParams { s.params with adCap := r })

/-- SETP.MIXER (rule R275). -/
def execSetpMixer (b : BitVec 3) (s : State) : Host.Outcome State Fault Refusal :=
  .next (s.setParams { s.params with mixer := b })

/-- SETP.ENV_MODE (rule R276). -/
def execSetpEnvMode (m : EnvMode) (s : State) : Host.Outcome State Fault Refusal :=
  .next (s.setParams { s.params with envMode := m })

/-- SETP.VCO_MODE (rule R277). -/
def execSetpVcoMode (m : VcoMode) (s : State) : Host.Outcome State Fault Refusal :=
  .next (s.setParams { s.params with vcoMode := m })

/-- SETP.ENABLE_N (rule R278). -/
def execSetpEnableN (b : Bool) (s : State) : Host.Outcome State Fault Refusal :=
  .next (s.setParams { s.params with enableN := b })

/-- SETP.OS_EXT_V (rule R279). -/
def execSetpOsExtV (v : Voltage) (s : State) : Host.Outcome State Fault Refusal :=
  .next (s.setParams { s.params with osExtV := v })

/-- SETP.SLF_EXT_V (rule R280). -/
def execSetpSlfExtV (v : Voltage) (s : State) : Host.Outcome State Fault Refusal :=
  .next (s.setParams { s.params with slfExtV := v })

/-- SETP.VCO_EXT_V (rule R281). -/
def execSetpVcoExtV (v : Voltage) (s : State) : Host.Outcome State Fault Refusal :=
  .next (s.setParams { s.params with vcoExtV := v })

/-- SETP.EXT_EN (rule R282). -/
def execSetpExtEn (b : BitVec 3) (s : State) : Host.Outcome State Fault Refusal :=
  .next (s.setParams { s.params with extEn := b })

end Sys2Proof.Machine
end

