-- ==== Sys2Proof/Machine/Flags.lean ====
section
/-! DEFINITION. Every flip-flop's next value and every bit computed from flip-flops: the comparators
of the stages (41_oscillators.md rule R154: `>=` above, `<=` below, the upper test first), the
envelope's direction and the mixer's bit. -/

namespace Sys2Proof.Machine

/-- `OS_RUN` after the MAX test (41_oscillators.md rule R144). -/
def osRunNext (c : Config) (osEff : Voltage) (osRun : Bool) : Bool :=
  if osEff ≥ c.os.max then false else osRun

/-- `SLF_FF` (41_oscillators.md rule R147). -/
def slfFfNext (c : Config) (slfEff : Voltage) (slfFf : Bool) : Bool :=
  if slfEff ≥ c.slf.max then true else if slfEff ≤ c.slf.min then false else slfFf

/-- `VCO_FF` (41_oscillators.md rule R152). -/
def vcoFfNext (c : Config) (ceiling vcoEff : Voltage) (vcoFf : Bool) : Bool :=
  if vcoEff ≥ ceiling then true else if vcoEff ≤ c.vco.min then false else vcoFf

/-- `VCO_ALT`: toggles on a rising transition of `VCO_FF` only, decided from `VCO_FF` before it is
set (41_oscillators.md rule R152; 60_exceptions.md rule R303 (c)). -/
def vcoAltNext (ceiling vcoEff : Voltage) (vcoFf vcoAlt : Bool) : Bool :=
  if vcoEff ≥ ceiling ∧ vcoFf = false then !vcoAlt else vcoAlt

/-- `FNOISE_FF`, the inverse of the filter capacitor's level with hysteresis (42_noise.md rule
R179). -/
def fnoiseFfNext (c : Config) (nfV : Voltage) (fnoiseFf : Bool) : Bool :=
  if nfV ≥ c.nfThHigh then false else if nfV ≤ c.nfThLow then true else fnoiseFf

/-- The envelope's direction (43_envelope.md rule R190). -/
def envCharging (m : EnvMode) (vcoFf osRun vcoAlt : Bool) : Bool :=
  match m with
  | .vco => vcoFf
  | .oneShot => osRun
  | .mixerOnly => true
  | .vcoAltPolarity => vcoFf && vcoAlt

/-- The mixer's logical output bit for each of the eight codes (44_mixer_output.md rule R201). -/
def mixerBit (mode : BitVec 3) (vcoFf slfFf fnoiseFf : Bool) : Bool :=
  match mode.toFin with
  | 0 => false
  | 1 => vcoFf
  | 2 => slfFf
  | 3 => vcoFf && slfFf
  | 4 => fnoiseFf
  | 5 => vcoFf && fnoiseFf
  | 6 => slfFf && fnoiseFf
  | 7 => vcoFf && slfFf && fnoiseFf

end Sys2Proof.Machine
end

