-- ==== Sys2Proof/Machine/Rates.lean ====
section
/-! DEFINITION. The Rate Computer (40_rate_computer.md): pure functions of the Parameter Store,
SAMPLE_RATE and the configuration. -/

namespace Sys2Proof.Machine

/-- The presence policy (rule R111). -/
def rate (f : Component → Component → Component) (r k : Component) : ℚ :=
  if 0 < r.val ∧ 0 < k.val then (f r k).val
  else if 0 < k.val then Config.rateNever
  else if 0 < r.val then Config.rateInstant
  else 0

/-- `step = rate / SAMPLE_RATE` (rule R117). -/
def stepOf (sr : ℕ+) (perSecond : ℚ) : ℚ := perSecond / ((sr : ℕ) : ℚ)

/-- Sentinel division (rule R125). -/
def sdiv (a b : ℚ) : ℚ :=
  if b ≠ 0 then a / b else if a = 0 then 0 else Config.rateInstant

/-- The duty cycle (rule R121); `VCO_VOLTAGE = 0` gives 1/2. -/
def duty (p : Params) : ℚ :=
  if p.vcoVoltage = 0 then 1 / 2
  else clamp (max (Config.dutyCoef * p.pitchVoltage / p.vcoVoltage) Config.dutyFloor) 0 1

/-- The duty multiplier `m` (rule R122). -/
def dutyMultiplier (p : Params) : ℚ := (1 - duty p) * 2

/-- `vco_chg_base` (rule R114). -/
def vcoChgBase (c : Config) (p : Params) (sr : ℕ+) : ℚ := stepOf sr (rate c.fVcoChg p.vcoRes p.vcoCap)

/-- `vco_dis_base` (rule R114). -/
def vcoDisBase (c : Config) (p : Params) (sr : ℕ+) : ℚ := stepOf sr (rate c.fVcoDis p.vcoRes p.vcoCap)

/-- The ten per-sub-step steps (rule R110). -/
structure Steps where
  osChg : ℚ
  osDis : ℚ
  slfChg : ℚ
  slfDis : ℚ
  vcoChg : ℚ
  vcoDis : ℚ
  nfChg : ℚ
  nfDis : ℚ
  adChg : ℚ
  adDis : ℚ
  deriving DecidableEq, Repr

/-- The ten steps (rules R112 to R116, R122). The duty adjustment holds in both VCO modes and under
override (rule R126). -/
def computeSteps (c : Config) (p : Params) (sr : ℕ+) : Steps where
  osChg := stepOf sr (rate c.fOsChg p.osRes p.osCap)
  osDis := stepOf sr (rate c.fOsDis p.osRes p.osCap)
  slfChg := stepOf sr (rate c.fSlfChg p.slfRes p.slfCap)
  slfDis := stepOf sr (rate c.fSlfDis p.slfRes p.slfCap)
  vcoChg := sdiv (vcoChgBase c p sr) (dutyMultiplier p)
  vcoDis := vcoDisBase c p sr * dutyMultiplier p
  nfChg := stepOf sr (rate c.fNfChg p.noiseFilterRes p.noiseFilterCap)
  nfDis := stepOf sr (rate c.fNfDis p.noiseFilterRes p.noiseFilterCap)
  adChg := stepOf sr (rate c.fAdChg p.attackRes p.adCap)
  adDis := stepOf sr (rate c.fAdDis p.decayRes p.adCap)

end Sys2Proof.Machine
end

