-- ==== Sys2Proof/Machine/Envelope.lean ====
section
/-! DEFINITION. The Envelope Generator (43_envelope.md), stage 5 of a sub-step. -/

namespace Sys2Proof.Machine

/-- The envelope capacitor (rule R192): a ramp when the selected step is positive, a snap to the
extreme when it is exactly zero. -/
def envMove (c : Config) (charging : Bool) (adV chg dis : ℚ) : ℚ :=
  if charging then
    if 0 < chg then clamp (adV + chg) c.ad.min c.ad.max else c.ad.max
  else
    if 0 < dis then clamp (adV - dis) c.ad.min c.ad.max else c.ad.min

/-- Stage 5 (rules R190, R192): `VCO_FF`, `OS_RUN` and `VCO_ALT` are read as stages 1 and 3 of the
same sub-step left them. -/
def envelopeStage (c : Config) (p : Params) (st : Steps) (k : CircuitState) : CircuitState :=
  { k with
    adV := envMove c (envCharging p.envMode k.vcoFf k.osRun k.vcoAlt) k.adV st.adChg st.adDis }

end Sys2Proof.Machine
end

