-- ==== Sys2Proof/Machine/Noise.lean ====
section
/-! DEFINITION. The Noise Generator (42_noise.md), stage 4 of a sub-step: the clock, the shift
register, the filter capacitor and its comparator, in this order. -/

namespace Sys2Proof.Machine

/-- The bit the register shifts in: the taps' XOR, or a forced 1 when the tested bits are all 0
(rule R171). -/
def newBit (r : NoiseReg) : Bool :=
  if r &&& 0x1000001F#31 = 0#31 then true else Bool.xor (r.getLsbD 28) (r.getLsbD 0)

/-- One noise clock (rule R172): shift right, the new bit enters at bit 30. -/
def noiseClock (r : NoiseReg) : NoiseReg :=
  (r >>> 1) ||| ((BitVec.ofBool (newBit r)).setWidth 31 <<< 30)

/-- `raw = RNG[30]` (rule R177; 10_state.md rule R46). -/
def rawBit (r : NoiseReg) : Bool := r.getLsbD 30

/-- The generation frequency (rule R174): the range is inclusive at both ends. -/
def noiseFreq (c : Config) (p : Params) : ℤ :=
  if c.noiseRMin ≤ p.noiseClockRes.val ∧ p.noiseClockRes.val ≤ c.noiseRMax
  then ⌊(c.fNoise p.noiseClockRes).val⌋
  else 0

/-- The loop of rule R175, `while NCNT <= freq do NCNT <- NCNT + SAMPLE_RATE; clock`, run for at
most `fuel` rounds. -/
def noiseLoop (freq sr : ℤ) : ℕ → ℤ × NoiseReg → ℤ × NoiseReg
  | 0, x => x
  | fuel + 1, x =>
    if x.1 ≤ freq then noiseLoop freq sr fuel (x.1 + sr, noiseClock x.2) else x

/-- Rounds enough for the loop to end by its own test (rule R176). -/
def noiseRounds (freq sr ncnt : ℤ) : ℕ := ((freq - ncnt) / sr + 1).toNat

/-- The noise clock counter of one sub-step, with the register it clocks (rule R175). -/
def noiseCount (c : Config) (freq : ℤ) (sr : ℕ+) (ncnt : ℤ) (rng : NoiseReg) : ℤ × NoiseReg :=
  if 0 < freq then
    let x := noiseLoop freq (sr : ℕ) (noiseRounds freq (sr : ℕ) ncnt) (ncnt, rng)
    (min (x.1 - freq) (c.noiseCountMax : ℕ), x.2)
  else (min ncnt (c.noiseCountMax : ℕ), rng)

/-- Stage 4 (rules R175, R172, R178, R179): all clocks of the sub-step happen before the filter
moves, and the comparator reads the moved capacitor. -/
def noiseStage (c : Config) (freq : ℤ) (sr : ℕ+) (st : Steps) (k : CircuitState) : CircuitState :=
  let x := noiseCount c freq sr k.ncnt k.rng
  let nfV := moveCapacitor c.nf (rawBit x.2) k.nfV st.nfChg st.nfDis
  { k with
    ncnt := x.1
    rng := x.2
    nfV := nfV
    fnoiseFf := fnoiseFfNext c nfV k.fnoiseFf }

end Sys2Proof.Machine
end

