-- ==== Sys2Proof/Machine/Oscillators.lean ====
section
/-! DEFINITION. The Oscillator Set (41_oscillators.md): stages 1, 2 and 3 of a sub-step. Each moves
its capacitor, then compares its effective voltage (rule R140). -/

namespace Sys2Proof.Machine

/-- Stage 1: the pair (`OS_V`, `os_eff`) (rules R141, R143). -/
def osMove (c : Config) (p : Params) (st : Steps) (k : CircuitState) : Voltage × Voltage :=
  withOverride p.osOverride p.osExtV k.osV (moveCapacitor c.os k.osRun k.osV st.osChg st.osDis)

/-- Stage 1, the one-shot (rules R142, R143, R144). -/
def oneShotStage (c : Config) (p : Params) (st : Steps) (k : CircuitState) : CircuitState :=
  { k with
    osV := (osMove c p st k).1
    osRun := osRunNext c (osMove c p st k).2 k.osRun }

/-- Stage 2: the pair (`SLF_V`, `slf_eff`) (rules R141, R146). `SLF_FF = 0` means CHARGING. -/
def slfMove (c : Config) (p : Params) (st : Steps) (k : CircuitState) : Voltage × Voltage :=
  withOverride p.slfOverride p.slfExtV k.slfV
    (moveCapacitor c.slf (!k.slfFf) k.slfV st.slfChg st.slfDis)

/-- Stage 2, the SLF (rules R146, R147). -/
def slfStage (c : Config) (p : Params) (st : Steps) (k : CircuitState) : CircuitState :=
  { k with
    slfV := (slfMove c p st k).1
    slfFf := slfFfNext c (slfMove c p st k).2 k.slfFf }

/-- The VCO ceiling (rule R150). -/
def vcoCeiling (c : Config) (p : Params) (slfEff : Voltage) : Voltage :=
  match p.vcoMode with
  | .internal => slfEff + c.vcoOffset
  | .external => c.vcoOffset

/-- The VCO's internal capacitor update: the charge stops at the ceiling, then the stage's own range
clamps (rule R151). -/
def vcoUpdated (c : Config) (st : Steps) (ceiling : Voltage) (k : CircuitState) : Voltage :=
  if k.vcoFf = false then clamp (min (k.vcoV + st.vcoChg) ceiling) c.vco.min c.vco.max
  else clamp (k.vcoV - st.vcoDis) c.vco.min c.vco.max

/-- Stage 3: the pair (`VCO_V`, `vco_eff`) (rules R141, R151). -/
def vcoMove (c : Config) (p : Params) (st : Steps) (ceiling : Voltage) (k : CircuitState) :
    Voltage × Voltage :=
  withOverride p.vcoOverride p.vcoExtV k.vcoV (vcoUpdated c st ceiling k)

/-- Stage 3, the VCO (rules R150, R151, R152). -/
def vcoStage (c : Config) (p : Params) (st : Steps) (ceiling : Voltage) (k : CircuitState) :
    CircuitState :=
  { k with
    vcoV := (vcoMove c p st ceiling k).1
    vcoFf := vcoFfNext c ceiling (vcoMove c p st ceiling k).2 k.vcoFf
    vcoAlt := vcoAltNext ceiling (vcoMove c p st ceiling k).2 k.vcoFf k.vcoAlt }

end Sys2Proof.Machine
end

