-- ==== Sys2Proof/Machine/Output.lean ====
section
/-! DEFINITION. The Mixer and Output Stage (44_mixer_output.md), stage 6 of a sub-step: purely
combinational. And the widths and words of the response port (30_encoding.md rule R97). -/

namespace Sys2Proof.Machine

/-- The output gate `active` (rule R203). -/
def outputActive (c : Config) (p : Params) (vcoEff : Voltage) : Bool :=
  !p.enableN && decide (vcoEff ≤ c.vco.max)

/-- The table index before it is made an index (rule R204): `clamp(floor(AD_V * 10), 0, 44)`. -/
def tableIndex (adV : Voltage) : ℤ := min (max ⌊adV * 10⌋ 0) 44

/-- The table index (rule R204). -/
def gainIndex (adV : Voltage) : Fin 45 :=
  ⟨(tableIndex adV).toNat, by unfold tableIndex; omega⟩

/-- The gain lookup (rule R205). -/
def gain (c : Config) (bit : Bool) (idx : Fin 45) : ℚ :=
  if bit then c.posGain.get idx else c.negGain.get idx

/-- The output voltage of the active branch, clipped on one side (rule R206). -/
def activeVout (c : Config) (bit : Bool) (idx : Fin 45) : Voltage :=
  if bit then min (c.outCenter + c.peakGain * gain c bit idx) c.outClipHigh
  else max (c.outCenter + c.peakGain * gain c bit idx) c.outClipLow

/-- The output voltage (rule R206). -/
def outputVoltage (c : Config) (active bit : Bool) (idx : Fin 45) : Voltage :=
  if active then activeVout c bit idx else c.outCenter

/-- The rescaled value `x` (rule R208). -/
def rescale (c : Config) (vout : Voltage) : ℚ :=
  ((vout - c.outClipLow) / (c.outCenter - c.outClipLow) - 1) * ((c.fullScale : ℕ) : ℚ)

/-- The primary sample (rule R209). -/
def sampleOf (c : Config) (vout : Voltage) : ℤ := trunc (rescale c vout)

/-- Stage 6 (rules R200 to R209): it reads the state the other stages left and writes none. -/
def outputStage (c : Config) (p : Params) (vcoEff : Voltage) (k : CircuitState) : ℤ :=
  sampleOf c (outputVoltage c (outputActive c p vcoEff)
    (mixerBit p.mixer k.vcoFf k.slfFf k.fnoiseFf) (gainIndex k.adV))

/-! ### The response port (30_encoding.md rule R97) -/

/-- The at most 91 output voltages of a configuration (rule R210). -/
def possibleVouts (c : Config) : List Voltage :=
  c.outCenter :: (List.finRange 45).flatMap fun i => [activeVout c true i, activeVout c false i]

/-- How many bits the binary numeral of `n` has. -/
def bitCount (n : ℕ) : ℕ := if n = 0 then 0 else n.log2 + 1

/-- The fewest bits that hold `x` in two's complement. -/
def signedWidth (x : ℤ) : ℕ := bitCount (if 0 ≤ x then x.toNat else (-x - 1).toNat) + 1

/-- The fewest bits that hold every sample of the configuration. -/
def leastSampleWidth (c : Config) : ℕ :=
  (possibleVouts c).foldr (fun v w => max (signedWidth (sampleOf c v)) w) 1

/-- `SAMPLE_W`: open, and "wide enough for every sample the configuration can produce". -/
def sampleW (c : Config) : ℕ := leastSampleWidth c + c.sampleExtraWidth

/-- The wires `rsp_sample`: the sample in two's complement. -/
def State.samplePort (s : State) : BitVec (sampleW Config.cfg) :=
  BitVec.ofInt (sampleW Config.cfg) s.rsp.sample

/-- The wires `rsp_aux`: `enc_s` of the auxiliary value. -/
def State.auxPort (s : State) : Payload Config.cfg := Config.cfg.encS s.rsp.aux

/-- The wire `cmd_ready`: a state of the model lies between two commands, where the engine is idle
and can take one (30_encoding.md rule R81; 70_reset_and_hazards.md rule R333). -/
def State.cmdReady (_ : State) : Bool := true

end Sys2Proof.Machine
end

