-- ==== Sys2Proof/Machine/Update.lean ====
section
/-! DEFINITION. The Update Scheduler and the UPDATE command (45_update_scheduler.md). -/

namespace Sys2Proof.Machine

/-- One sub-step (rules R221, R223): the six stages in the fixed order, each reading what the
earlier ones have just written. Answers the CircuitState, the sample and the auxiliary value
`vco_eff` (rule R225). -/
def substep (c : Config) (p : Params) (sr : ℕ+) (st : Steps) (freq : ℤ) (k0 : CircuitState) :
    CircuitState × ℤ × Voltage :=
  let k1 := oneShotStage c p st k0
  let slfEff := (slfMove c p st k1).2
  let k2 := slfStage c p st k1
  let ceiling := vcoCeiling c p slfEff
  let vcoEff := (vcoMove c p st ceiling k2).2
  let k3 := vcoStage c p st ceiling k2
  let k4 := noiseStage c freq sr st k3
  let k5 := envelopeStage c p st k4
  (k5, outputStage c p vcoEff k5, vcoEff)

/-- `n + 1` sub-steps, answering what the last one answers (rules R220, R224). -/
def substeps (c : Config) (p : Params) (sr : ℕ+) (st : Steps) (freq : ℤ) :
    ℕ → CircuitState → CircuitState × ℤ × Voltage
  | 0, k => substep c p sr st freq k
  | n + 1, k => substeps c p sr st freq n (substep c p sr st freq k).1

/-- What an UPDATE computes from the Parameter Store, SAMPLE_RATE and the CircuitState: `N_SUB`
sub-steps under constant parameters (rules R220, R222; 20_memory.md rule R71). -/
def runUpdate (c : Config) (p : Params) (sr : ℕ+) (k : CircuitState) : CircuitState × ℤ × Voltage :=
  substeps c p sr (computeSteps c p sr) (noiseFreq c p) c.nSub.natPred k

/-- UPDATE over any configuration: the CircuitState advances and one response is given. -/
def State.updated (c : Config) (s : State) : State :=
  let r := runUpdate c s.params s.sampleRate s.circuit
  (s.setCircuit r.1).respond r.2.1 r.2.2

/-- UPDATE (rule R220). The requested count `n` is decoded and ignored (rule R226). -/
def execUpdate (_n : ℕ) (s : State) : Host.Outcome State Fault Refusal :=
  .next (s.updated Config.cfg)

end Sys2Proof.Machine
end

