-- ==== Sys2Proof/Machine/Dispatch.lean ====
section
/-! DEFINITION. One arm per command: the dispatch. -/

namespace Sys2Proof.Machine

/-- The meaning of each command (30_encoding.md rule R84). -/
def exec (i : Instr) (s : State) : Host.Outcome State Fault Refusal :=
  match i with
  | .nop => Sys2Proof.Machine.execNop s
  | .init => Sys2Proof.Machine.execInit s
  | .trig => Sys2Proof.Machine.execTrig s
  | .setsr n => Sys2Proof.Machine.execSetsr n s
  | .update n => Sys2Proof.Machine.execUpdate n s
  | .setpOsRes r => Sys2Proof.Machine.execSetpOsRes r s
  | .setpOsCap r => Sys2Proof.Machine.execSetpOsCap r s
  | .setpSlfRes r => Sys2Proof.Machine.execSetpSlfRes r s
  | .setpSlfCap r => Sys2Proof.Machine.execSetpSlfCap r s
  | .setpVcoRes r => Sys2Proof.Machine.execSetpVcoRes r s
  | .setpVcoCap r => Sys2Proof.Machine.execSetpVcoCap r s
  | .setpVcoVoltage v => Sys2Proof.Machine.execSetpVcoVoltage v s
  | .setpPitchVoltage v => Sys2Proof.Machine.execSetpPitchVoltage v s
  | .setpNoiseClockRes r => Sys2Proof.Machine.execSetpNoiseClockRes r s
  | .setpNoiseFilterRes r => Sys2Proof.Machine.execSetpNoiseFilterRes r s
  | .setpNoiseFilterCap r => Sys2Proof.Machine.execSetpNoiseFilterCap r s
  | .setpAttackRes r => Sys2Proof.Machine.execSetpAttackRes r s
  | .setpDecayRes r => Sys2Proof.Machine.execSetpDecayRes r s
  | .setpAdCap r => Sys2Proof.Machine.execSetpAdCap r s
  | .setpMixer b => Sys2Proof.Machine.execSetpMixer b s
  | .setpEnvMode m => Sys2Proof.Machine.execSetpEnvMode m s
  | .setpVcoMode m => Sys2Proof.Machine.execSetpVcoMode m s
  | .setpEnableN b => Sys2Proof.Machine.execSetpEnableN b s
  | .setpOsExtV v => Sys2Proof.Machine.execSetpOsExtV v s
  | .setpSlfExtV v => Sys2Proof.Machine.execSetpSlfExtV v s
  | .setpVcoExtV v => Sys2Proof.Machine.execSetpVcoExtV v s
  | .setpExtEn b => Sys2Proof.Machine.execSetpExtEn b s

end Sys2Proof.Machine
end

