-- ==== Sys2Proof/Machine/Step.lean ====
section
/-! DEFINITION. One step: the engine takes the next port input and completes it (00_scope.md rule R7;
30_encoding.md rule R81). -/

namespace Sys2Proof.Machine

/-- One step. Nothing presented: idle. `rst`: power-on reset. A command: its decoding is executed
once `rsp_valid` has fallen and the command has been taken from the port; a reserved encoding is
refused by name. -/
def step (s : State) : Host.Outcome State Fault Refusal :=
  match s.inputs with
  | [] => .next s.idle
  | .rst :: rest => .next (State.powerOnReset rest)
  | .command w :: rest =>
    match decode Config.cfg w with
    | .ok i => exec i (s.accept rest)
    | .error e => .refused (.reservedEncoding e)

/-- `s` with the command whose bits are `w` presented first at the port, where the next step takes
it. -/
def State.withFetchWord (s : State) (nbits w : ℕ) : State :=
  s.present (commandOfWord Config.cfg nbits w)

end Sys2Proof.Machine
end

