-- ==== Sys2Proof/Machine/Assembler.lean ====
section
/-! DEFINITION. The spec's assembler notation (30_encoding.md rules R95, R96): a command as a line of
text and as `op:payload`, and the pseudo-instructions with their expansions. -/

namespace Sys2Proof.Machine

/-- The pseudo-instructions (rule R96). -/
inductive Pseudo where
  /-- `update` without an operand -/
  | update
  | setos (r c : Component)
  | setslf (r c : Component)
  | setvco (r c : Component)
  | setnf (r c : Component)
  | setad (a d c : Component)
  /-- VCO, SLF, noise enable -/
  | setmix (v s n : Bool)
  | enable
  | disable
  deriving DecidableEq, Repr

/-- The expansion of a pseudo-instruction (rule R96). -/
def expandPseudo : Pseudo → List Instr
  | .update => [.update 1]
  | .setos r c => [.setpOsRes r, .setpOsCap c]
  | .setslf r c => [.setpSlfRes r, .setpSlfCap c]
  | .setvco r c => [.setpVcoRes r, .setpVcoCap c]
  | .setnf r c => [.setpNoiseFilterRes r, .setpNoiseFilterCap c]
  | .setad a d c => [.setpAttackRes a, .setpDecayRes d, .setpAdCap c]
  | .setmix v s n => [.setpMixer (BitVec.ofNat 3 (n.toNat * 4 + s.toNat * 2 + v.toNat))]
  | .enable => [.setpEnableN false]
  | .disable => [.setpEnableN true]

/-- A slot's name in the notation (10_state.md rule R21). -/
def slotName : Slot → String
  | .osRes => "OS_RES"
  | .osCap => "OS_CAP"
  | .slfRes => "SLF_RES"
  | .slfCap => "SLF_CAP"
  | .vcoRes => "VCO_RES"
  | .vcoCap => "VCO_CAP"
  | .vcoVoltage => "VCO_VOLTAGE"
  | .pitchVoltage => "PITCH_VOLTAGE"
  | .noiseClockRes => "NOISE_CLOCK_RES"
  | .noiseFilterRes => "NOISE_FILTER_RES"
  | .noiseFilterCap => "NOISE_FILTER_CAP"
  | .attackRes => "ATTACK_RES"
  | .decayRes => "DECAY_RES"
  | .adCap => "AD_CAP"
  | .mixer => "MIXER"
  | .envMode => "ENV_MODE"
  | .vcoMode => "VCO_MODE"
  | .enableN => "ENABLE_N"
  | .osExtV => "OS_EXT_V"
  | .slfExtV => "SLF_EXT_V"
  | .vcoExtV => "VCO_EXT_V"
  | .extEn => "EXT_EN"

/-- A rational in the notation: an integer, or a fraction (rule R95). -/
def ratText (q : ℚ) : String :=
  if q.den = 1 then toString q.num else toString q.num ++ "/" ++ toString q.den

/-- A slot's value in the notation: a number for classes U, S, B1 and B3, a name for the two modes
(rule R95). -/
def valueText : SlotValue → String
  | .unsigned r => ratText r.val
  | .signed v => ratText v
  | .bits3 b => toString b.toNat
  | .env .vco => "VCO"
  | .env .oneShot => "ONE_SHOT"
  | .env .mixerOnly => "MIXER_ONLY"
  | .env .vcoAltPolarity => "VCO_ALT_POLARITY"
  | .vcoMode .internal => "INTERNAL"
  | .vcoMode .external => "EXTERNAL"
  | .bit b => toString b.toNat

/-- The value a payload decodes to, as `op:payload` writes it (rule R95; 95_test_vectors.md): a number
for every class. -/
def payloadText : SlotValue → String
  | .unsigned r => ratText r.val
  | .signed v => ratText v
  | .bits3 b => toString b.toNat
  | .env m => toString m.toBits.toNat
  | .vcoMode m => toString m.toBit.toNat
  | .bit b => toString b.toNat

/-- The line of a SETP command. -/
def setpLine : Option (Slot × SlotValue) → String
  | some (slot, v) => "setp " ++ slotName slot ++ ", " ++ valueText v
  | none => ""

/-- The payload of a SETP command. -/
def setpPayload : Option (Slot × SlotValue) → String
  | some (_, v) => payloadText v
  | none => ""

/-- A command as one line of the notation (rule R95). -/
def lineOf (i : Instr) : String :=
  match i with
  | .nop => "nop"
  | .init => "init"
  | .trig => "trig"
  | .setsr n => "setsr " ++ toString n
  | .update n => "update " ++ toString n
  | .setpOsRes _ | .setpOsCap _ | .setpSlfRes _ | .setpSlfCap _ | .setpVcoRes _ | .setpVcoCap _
  | .setpVcoVoltage _ | .setpPitchVoltage _ | .setpNoiseClockRes _ | .setpNoiseFilterRes _
  | .setpNoiseFilterCap _ | .setpAttackRes _ | .setpDecayRes _ | .setpAdCap _ | .setpMixer _
  | .setpEnvMode _ | .setpVcoMode _ | .setpEnableN _ | .setpOsExtV _ | .setpSlfExtV _
  | .setpVcoExtV _ | .setpExtEn _ =>
    setpLine (slotWrite? i)

/-- Two hexadecimal digits. -/
def hexByte (b : Opcode) : String :=
  String.ofList [Nat.digitChar (b.toNat / 16), Nat.digitChar (b.toNat % 16)] |>.toUpper

/-- A command as `op:payload`; a format Z command carries no payload, written `-` (rule R95;
95_test_vectors.md section 10). -/
def encodingText (i : Instr) : String :=
  hexByte i.opcode ++ ":" ++
    match i with
    | .nop | .init | .trig => "-"
    | .setsr n | .update n => toString n
    | .setpOsRes _ | .setpOsCap _ | .setpSlfRes _ | .setpSlfCap _ | .setpVcoRes _ | .setpVcoCap _
    | .setpVcoVoltage _ | .setpPitchVoltage _ | .setpNoiseClockRes _ | .setpNoiseFilterRes _
    | .setpNoiseFilterCap _ | .setpAttackRes _ | .setpDecayRes _ | .setpAdCap _ | .setpMixer _
    | .setpEnvMode _ | .setpVcoMode _ | .setpEnableN _ | .setpOsExtV _ | .setpSlfExtV _
    | .setpVcoExtV _ | .setpExtEn _ =>
      setpPayload (slotWrite? i)

end Sys2Proof.Machine
end

