-- ==== Sys2Proof/Safety.lean ====
section
/-! DEFINITION. What counts as a good state and a good run of CSGE, in the terms the statements use. -/

namespace Sys2Proof.Machine

/-- Every capacitor register is within its stage's range (10_state.md rule R31). -/
def CircuitState.InRange (c : Config) (k : CircuitState) : Prop :=
  (c.os.min ≤ k.osV ∧ k.osV ≤ c.os.max) ∧ (c.slf.min ≤ k.slfV ∧ k.slfV ≤ c.slf.max) ∧
  (c.vco.min ≤ k.vcoV ∧ k.vcoV ≤ c.vco.max) ∧ (c.nf.min ≤ k.nfV ∧ k.nfV ≤ c.nf.max) ∧
  (c.ad.min ≤ k.adV ∧ k.adV ≤ c.ad.max)

/-- `0 <= NCNT <= NOISE_COUNT_MAX` (10_state.md rule R35). -/
def CircuitState.CounterBounded (c : Config) (k : CircuitState) : Prop :=
  0 ≤ k.ncnt ∧ k.ncnt ≤ ((c.noiseCountMax : ℕ) : ℤ)

/-- The held sample is a two's-complement integer of `SAMPLE_W` bits (30_encoding.md rule R97). -/
def State.SampleFits (s : State) : Prop :=
  -2 ^ (sampleW Config.cfg - 1) ≤ s.rsp.sample ∧ s.rsp.sample < 2 ^ (sampleW Config.cfg - 1)

/-- The machine's invariant: 10_state.md rules R31 and R35, 30_encoding.md rule R97. -/
def State.Inv (s : State) : Prop :=
  s.circuit.InRange Config.cfg ∧ s.circuit.CounterBounded Config.cfg ∧ s.SampleFits

/-- The `while` loop of 42_noise.md rule R175 as a relation: from (`NCNT`, `RNG`) the loop
`while NCNT <= freq do NCNT <- NCNT + SAMPLE_RATE; clock` ends after that many rounds in that pair.
It says what the loop means without a bound on its rounds. -/
inductive NoiseWhile (freq sr : ℤ) : ℤ × NoiseReg → ℕ → ℤ × NoiseReg → Prop where
  | done {n : ℤ} {r : NoiseReg} (h : freq < n) : NoiseWhile freq sr (n, r) 0 (n, r)
  | clock {n : ℤ} {r : NoiseReg} {m : ℕ} {y : ℤ × NoiseReg} (h : n ≤ freq)
      (rest : NoiseWhile freq sr (n + sr, noiseClock r) m y) : NoiseWhile freq sr (n, r) (m + 1) y

/-- The CircuitState after one sub-step under constant parameters and SAMPLE_RATE. -/
def nextCircuit (c : Config) (p : Params) (sr : ℕ+) (k : CircuitState) : CircuitState :=
  (substep c p sr (computeSteps c p sr) (noiseFreq c p) k).1

/-- The commands `is`, executed in order from `s`, all complete and lead to `t`. -/
inductive Executes : List Instr → State → State → Prop where
  | nil {s : State} : Executes [] s s
  | cons {i : Instr} {is : List Instr} {s t u : State} (h : exec i s = .next t)
      (rest : Executes is t u) : Executes (i :: is) s u

/-- The states of runs from reset, whatever the host presents at the ports. -/
inductive Reachable : State → Prop where
  | reset (inputs : List PortInput) : Reachable { State.reset with inputs := inputs }
  | step {s t : State} (h : Reachable s) (hs : step s = .next t) : Reachable t

end Sys2Proof.Machine
end

