-- ==== Sys2Proof/Certificates/Slice0/Obligations.lean ====
section
/-! DEFINITION. The statements for the provers. `c` ranges over every configuration; the machine
(`exec`, `step`, `State.reset`) runs on the open one, `Config.cfg`. -/

open Sys2Proof Sys2Proof.Machine

/-! ### Encoding -/

/-- 30_encoding.md section 2, the opcode map: what a few words written out from it decode to. -/
def Obligations.KnownCommandWordsDecode : Prop :=
  ∀ (c : Config) (d : Payload c),
    decode c ⟨0x00#8, d⟩ = .ok .nop ∧
    decode c ⟨0x01#8, d⟩ = .ok .init ∧
    decode c ⟨0x02#8, d⟩ = .ok .trig ∧
    decode c ⟨0x03#8, d⟩ = .ok (.setsr d.toNat) ∧
    decode c ⟨0x04#8, d⟩ = .ok (.update d.toNat) ∧
    decode c ⟨0x23#8, d⟩ = .ok (.setpSlfCap (c.decU d)) ∧
    decode c ⟨0x2E#8, d⟩ = .ok (.setpMixer (BitVec.ofNat 3 d.toNat)) ∧
    decode c ⟨0x34#8, d⟩ = .ok (.setpVcoExtV (c.decS d))

/-- Decode and encode agree: every well-formed command is what its encoding decodes to. -/
def Obligations.DecodeOfEncodeIsTheCommand : Prop :=
  ∀ (c : Config) (i : Instr), i.wellFormed c = true → decode c (encode c i) = .ok i

/-- A decoded command is well formed and carries the opcode it came from, so no two opcodes share a
command. -/
def Obligations.DecodedCommandIsWellFormed : Prop :=
  ∀ (c : Config) (w : Command c) (i : Instr), decode c w = .ok i →
    i.wellFormed c = true ∧ i.opcode = w.op

/-- The reserved encodings, and only they, are refused, each by its own name, by the decoder and by
the step. The refusal is the treatment rules R91 and R92 ask of a model. -/
def Obligations.ReservedEncodingsAreRefused : Prop :=
  (∀ (c : Config) (w : Command c),
    ((0x05 ≤ w.op.toNat ∧ w.op.toNat ≤ 0x1F) ∨ 0x40 ≤ w.op.toNat →
      decode c w = .error (.reservedOpcode w.op)) ∧
    (0x36 ≤ w.op.toNat ∧ w.op.toNat ≤ 0x3F →
      decode c w = .error (.reservedSlot (BitVec.ofNat 5 w.op.toNat))) ∧
    (w.op.toNat ≤ 0x04 ∨ (0x20 ≤ w.op.toNat ∧ w.op.toNat ≤ 0x35) → ∃ i, decode c w = .ok i)) ∧
  (∀ (s : State) (w : Command Config.cfg) (rest : List PortInput) (e : DecodeError),
    s.inputs = .command w :: rest → decode Config.cfg w = .error e →
    step s = .refused (.reservedEncoding e))

/-- Classes B1, B2 and B3 take the low bits of the payload and ignore the rest; format N takes the
whole payload as an unsigned integer; and what the mode numbers name. -/
def Obligations.ModePayloadsTakeTheirLowBits : Prop :=
  ∀ (c : Config) (d : Payload c),
    decode c ⟨0x2E#8, d⟩ = .ok (.setpMixer (BitVec.ofNat 3 (d.toNat % 8))) ∧
    decode c ⟨0x35#8, d⟩ = .ok (.setpExtEn (BitVec.ofNat 3 (d.toNat % 8))) ∧
    decode c ⟨0x2F#8, d⟩ = .ok (.setpEnvMode
      (if d.toNat % 4 = 0 then .vco else if d.toNat % 4 = 1 then .oneShot
       else if d.toNat % 4 = 2 then .mixerOnly else .vcoAltPolarity)) ∧
    decode c ⟨0x30#8, d⟩ = .ok (.setpVcoMode (if d.toNat % 2 = 0 then .internal else .external)) ∧
    decode c ⟨0x31#8, d⟩ = .ok (.setpEnableN (decide (d.toNat % 2 = 1))) ∧
    decode c ⟨0x03#8, d⟩ = .ok (.setsr d.toNat) ∧ decode c ⟨0x04#8, d⟩ = .ok (.update d.toNat)

/-- `PAYLOAD_CODEC`: the width, the zero word, and `enc_s` (a right inverse where the value is
representable, otherwise a nearest representable value). -/
def Obligations.PayloadCodec : Prop :=
  ∀ c : Config, 3 ≤ c.payW ∧ (c.decU 0).val = 0 ∧ c.decS 0 = 0 ∧
    (∀ d : Payload c, 0 ≤ (c.decU d).val) ∧
    (∀ d : Payload c, c.decS (c.encS (c.decS d)) = c.decS d) ∧
    (∀ (v : Voltage) (e : Payload c), |c.decS (c.encS v) - v| ≤ |c.decS e - v|)

/-! ### A step -/

/-- A step runs the decoded command: once the command has been taken from the port and the response
pulse has fallen, the step is the command's execution. -/
def Obligations.StepRunsTheDecodedCommand : Prop :=
  ∀ (s : State) (w : Command Config.cfg) (rest : List PortInput) (i : Instr),
    s.inputs = .command w :: rest → decode Config.cfg w = .ok i →
    step s = exec i { s with rsp := { s.rsp with valid := false }, inputs := rest }

/-- A command placed at the port by its bits is the one the next step runs. -/
def Obligations.StepRunsThePresentedWord : Prop :=
  ∀ (s : State) (nbits w : ℕ) (i : Instr), decodeTableWord nbits w = some i →
    step (s.withFetchWord nbits w) = exec i { s with rsp := { s.rsp with valid := false } }

/-- With nothing presented the engine completes an idle step in which all state survives and the
response pulse is over. -/
def Obligations.IdleStepKeepsAllState : Prop :=
  ∀ s : State, s.inputs = [] → ∃ t, step s = .next t ∧ t.params = s.params ∧
    t.sampleRate = s.sampleRate ∧ t.circuit = s.circuit ∧ t.rsp.valid = false ∧
    t.rsp.sample = s.rsp.sample ∧ t.rsp.aux = s.rsp.aux ∧ t.inputs = []

/-- Every command completes in every state. A step answers no next state only for a reserved encoding:
that it refuses one is the model's choice (log entry 5), taken as R91 and R92 ask of a model; the
hardware gives such an encoding no effect. -/
def Obligations.EveryCommandCompletes : Prop :=
  (∀ (i : Instr) (s : State), ∃ t, exec i s = .next t) ∧
  (∀ s : State, (∃ t, step s = .next t) ∨
    ∃ w rest e, s.inputs = .command w :: rest ∧ decode Config.cfg w = .error e ∧
      step s = .refused (.reservedEncoding e))

/-! ### Reset -/

/-- The complete list of reset values. -/
def Obligations.ResetValues : Prop :=
  (∀ slot ∈ ([.osRes, .osCap, .slfRes, .slfCap, .vcoRes, .vcoCap, .noiseClockRes, .noiseFilterRes,
      .noiseFilterCap, .attackRes, .decayRes, .adCap] : List Slot),
    State.reset.params.read slot = .unsigned ⟨0, le_refl 0⟩) ∧
  (∀ slot ∈ ([.vcoVoltage, .pitchVoltage, .osExtV, .slfExtV, .vcoExtV] : List Slot),
    State.reset.params.read slot = .signed 0) ∧
  State.reset.params.mixer = 0b000#3 ∧ State.reset.params.envMode = .vco ∧
  State.reset.params.vcoMode = .internal ∧ State.reset.params.enableN = false ∧
  State.reset.params.extEn = 0b000#3 ∧
  State.reset.sampleRate = Config.cfg.sampleRateReset ∧
  State.reset.circuit.osV = Config.cfg.os.min ∧ State.reset.circuit.slfV = Config.cfg.slf.min ∧
  State.reset.circuit.vcoV = Config.cfg.vco.min ∧ State.reset.circuit.nfV = Config.cfg.nf.min ∧
  State.reset.circuit.adV = Config.cfg.ad.min ∧
  State.reset.circuit.osRun = false ∧ State.reset.circuit.slfFf = false ∧
  State.reset.circuit.vcoFf = false ∧ State.reset.circuit.vcoAlt = false ∧
  State.reset.circuit.fnoiseFf = false ∧
  State.reset.circuit.rng = 0#31 ∧ State.reset.circuit.ncnt = 0

/-- `rst` resets the whole block from any state: every slot, SAMPLE_RATE, the CircuitState and the
response port; what the host presents next stays. -/
def Obligations.RstResetsTheWholeBlock : Prop :=
  ∀ (s : State) (rest : List PortInput), s.inputs = .rst :: rest →
    ∃ t, step s = .next t ∧ t.params = State.reset.params ∧
      t.sampleRate = Config.cfg.sampleRateReset ∧ t.circuit = State.reset.circuit ∧
      t.rsp.valid = false ∧ t.rsp.sample = 0 ∧ t.rsp.aux = 0 ∧ t.inputs = rest

/-! ### Control commands -/

/-- NOP: opcode 0x00 with any payload, written `nop`; it leaves any state unchanged. -/
def Obligations.NopChangesNothing : Prop :=
  (∀ (c : Config) (d : Payload c), decode c ⟨0x00#8, d⟩ = .ok .nop) ∧ lineOf .nop = "nop" ∧
  ∀ s : State, exec .nop s = .next s

/-- INIT: opcode 0x01 with any payload, written `init`; the CircuitState takes its initial values and
`VCO_MODE` becomes INTERNAL; no other slot, not SAMPLE_RATE, no response; it is idempotent; and its
CircuitState is the power-on one. -/
def Obligations.InitReinitialisesTheCircuit : Prop :=
  (∀ (c : Config) (d : Payload c), decode c ⟨0x01#8, d⟩ = .ok .init) ∧ lineOf .init = "init" ∧
  ∀ s : State, ∃ t, exec .init s = .next t ∧
    t.circuit.osV = Config.cfg.os.min ∧ t.circuit.slfV = Config.cfg.slf.min ∧
    t.circuit.vcoV = Config.cfg.vco.min ∧ t.circuit.nfV = Config.cfg.nf.min ∧
    t.circuit.adV = Config.cfg.ad.min ∧ t.circuit.osRun = false ∧ t.circuit.slfFf = false ∧
    t.circuit.vcoFf = false ∧ t.circuit.vcoAlt = false ∧ t.circuit.fnoiseFf = false ∧
    t.circuit.rng = 0#31 ∧ t.circuit.ncnt = 0 ∧ t.circuit = State.reset.circuit ∧
    t.params.vcoMode = .internal ∧
    (∀ slot, slot ≠ .vcoMode → t.params.read slot = s.params.read slot) ∧
    t.sampleRate = s.sampleRate ∧ t.rsp = s.rsp ∧ t.inputs = s.inputs ∧
    exec .init t = .next t

/-- TRIG: opcode 0x02 with any payload, written `trig`; it sets `OS_RUN` and nothing else, whatever
the voltage; again is the same as once; and no other command raises `OS_RUN`. -/
def Obligations.TrigSetsOnlyOsRun : Prop :=
  (∀ (c : Config) (d : Payload c), decode c ⟨0x02#8, d⟩ = .ok .trig) ∧ lineOf .trig = "trig" ∧
  (∀ s : State, ∃ t, exec .trig s = .next t ∧ t.circuit.osRun = true ∧
    t.circuit = { s.circuit with osRun := true } ∧ t.params = s.params ∧
    t.sampleRate = s.sampleRate ∧ t.rsp = s.rsp ∧ t.inputs = s.inputs ∧
    (s.circuit.osRun = true → t = s) ∧ exec .trig t = .next t) ∧
  (∀ (i : Instr) (s t : State), exec i s = .next t → s.circuit.osRun = false →
    t.circuit.osRun = true → i = .trig)

/-- SETSR: opcode 0x03, the payload its count; it stores a positive rate and nothing else (`NCNT` keeps
its value); 0 changes nothing. -/
def Obligations.SetsrStoresAPositiveRate : Prop :=
  (∀ (c : Config) (d : Payload c), decode c ⟨0x03#8, d⟩ = .ok (.setsr d.toNat)) ∧
  ∀ (n : ℕ) (s : State), lineOf (.setsr n) = "setsr " ++ toString n ∧
    (1 ≤ n → ∃ t, exec (.setsr n) s = .next t ∧ (t.sampleRate : ℕ) = n ∧
      t.circuit = s.circuit ∧ t.params = s.params ∧ t.rsp = s.rsp ∧ t.inputs = s.inputs) ∧
    (n = 0 → exec (.setsr n) s = .next s)

/-! ### Parameter setters -/

/-- Every SETP (SETP.OS_RES, OS_CAP, SLF_RES, SLF_CAP, VCO_RES, VCO_CAP, VCO_VOLTAGE, PITCH_VOLTAGE,
NOISE_CLOCK_RES, NOISE_FILTER_RES, NOISE_FILTER_CAP, ATTACK_RES, DECAY_RES, AD_CAP, MIXER, ENV_MODE,
VCO_MODE, ENABLE_N, OS_EXT_V, SLF_EXT_V, VCO_EXT_V, EXT_EN): each slot's opcode 0x20 + slot decodes, for
every payload, to the command that carries for that slot the payload's value in the slot's class; and
each such command completes for every value, writes that value to its slot and changes nothing else. -/
def Obligations.SetpWritesItsSlotOnly : Prop :=
  (∀ (c : Config) (d : Payload c) (slot : Slot), ∃ i v,
    decode c ⟨BitVec.ofNat 8 (0x20 + (slotNumber slot).toNat), d⟩ = .ok i ∧
    slotWrite? i = some (slot, v) ∧
    (slot ∈ ([.osRes, .osCap, .slfRes, .slfCap, .vcoRes, .vcoCap, .noiseClockRes, .noiseFilterRes,
      .noiseFilterCap, .attackRes, .decayRes, .adCap] : List Slot) → v = .unsigned (c.decU d)) ∧
    (slot ∈ ([.vcoVoltage, .pitchVoltage, .osExtV, .slfExtV, .vcoExtV] : List Slot) →
      v = .signed (c.decS d)) ∧
    (slot = .mixer ∨ slot = .extEn → v = .bits3 (d.extractLsb' 0 3)) ∧
    (slot = .envMode → v = .env (EnvMode.ofBits (d.extractLsb' 0 2))) ∧
    (slot = .vcoMode → v = .vcoMode (VcoMode.ofBit (d.getLsbD 0))) ∧
    (slot = .enableN → v = .bit (d.getLsbD 0))) ∧
  ∀ (i : Instr) (slot : Slot) (v : SlotValue) (s : State), slotWrite? i = some (slot, v) →
    i.opcode.toNat = 0x20 + (slotNumber slot).toNat ∧
    ∃ t, exec i s = .next t ∧ t.params.read slot = v ∧
      (∀ other, other ≠ slot → t.params.read other = s.params.read other) ∧
      t.sampleRate = s.sampleRate ∧ t.circuit = s.circuit ∧ t.rsp = s.rsp ∧ t.inputs = s.inputs

/-- Two SETPs to different slots commute, and a SETP to the same slot makes an earlier one vanish. -/
def Obligations.SetpsCommuteOrOverwrite : Prop :=
  ∀ (i j : Instr) (a b : Slot) (v w : SlotValue) (s t : State),
    slotWrite? i = some (a, v) → slotWrite? j = some (b, w) → Executes [i, j] s t →
    (a ≠ b → Executes [j, i] s t) ∧ (a = b → Executes [j] s t)

/-! ### Who writes what -/

/-- Every command but UPDATE is idempotent (20_memory.md section 2, "Side effects and idempotency"). -/
def Obligations.AllButUpdateAreIdempotent : Prop :=
  ∀ (i : Instr) (s t : State), (∀ n, i ≠ .update n) → exec i s = .next t → exec i t = .next t

/-- Exactly one response per UPDATE and none for any other step; between responses the port holds
the last response's values; after reset it holds 0 and the encoding of 0. -/
def Obligations.OnlyUpdateResponds : Prop :=
  (∀ s t : State, step s = .next t → (∀ rest, s.inputs ≠ .rst :: rest) →
    (t.rsp.valid = true ↔ ∃ w rest n, s.inputs = .command w :: rest ∧
      decode Config.cfg w = .ok (.update n)) ∧
    (t.rsp.valid = false → t.rsp.sample = s.rsp.sample ∧ t.rsp.aux = s.rsp.aux)) ∧
  State.reset.rsp.valid = false ∧ State.reset.rsp.sample = 0 ∧
  State.reset.auxPort = Config.cfg.encS 0

/-- Write access, command by command: SAMPLE_RATE is written by SETSR only; a slot by its own SETP
only, and `VCO_MODE` by INIT too; the CircuitState by INIT, TRIG and UPDATE only; the engine never
touches what the host presents next. -/
def Obligations.WriteAccess : Prop :=
  ∀ (i : Instr) (s t : State), exec i s = .next t →
    (t.sampleRate ≠ s.sampleRate → i = .setsr (t.sampleRate : ℕ)) ∧
    (∀ slot, t.params.read slot ≠ s.params.read slot →
      slotWrite? i = some (slot, t.params.read slot) ∨ (i = .init ∧ slot = .vcoMode)) ∧
    (t.circuit ≠ s.circuit → i = .init ∨ i = .trig ∨ ∃ n, i = .update n) ∧
    t.inputs = s.inputs

/-! ### UPDATE -/

/-- UPDATE: opcode 0x04, the payload its count; it completes in every state, whatever its count: `N_SUB`
sub-steps under the steps and the frequency computed from the Parameter Store and SAMPLE_RATE, the
response being that of the last sub-step. The Parameter Store and SAMPLE_RATE are unchanged, and every
count does the same. -/
def Obligations.UpdateRunsNSubSubsteps : Prop :=
  (∀ (c : Config) (d : Payload c), decode c ⟨0x04#8, d⟩ = .ok (.update d.toNat)) ∧
  ∀ (n : ℕ) (s : State), lineOf (.update n) = "update " ++ toString n ∧
    ∃ t, exec (.update n) s = .next t ∧
    t.circuit = (nextCircuit Config.cfg s.params s.sampleRate)^[(Config.cfg.nSub : ℕ)] s.circuit ∧
    t.rsp.valid = true ∧
    (t.rsp.sample, t.rsp.aux) =
      (substep Config.cfg s.params s.sampleRate
        (computeSteps Config.cfg s.params s.sampleRate) (noiseFreq Config.cfg s.params)
        ((nextCircuit Config.cfg s.params s.sampleRate)^[(Config.cfg.nSub : ℕ) - 1] s.circuit)).2 ∧
    t.params = s.params ∧ t.sampleRate = s.sampleRate ∧ t.inputs = s.inputs ∧
    ∀ m, exec (.update m) s = .next t

/-- The one-shot in a sub-step: the capacitor moves by the flag it finds, then the MAX test clears the
flag, in every sub-step. Under override the register stays and the external voltage is tested. -/
def Obligations.OneShotSubstep : Prop :=
  ∀ (c : Config) (p : Params) (sr : ℕ+) (st : Steps) (f : ℤ) (k t : CircuitState),
    t = (substep c p sr st f k).1 →
    t.osV = (if p.extEn.getLsbD 0 = false then
        (if k.osRun = true then min (max (k.osV + st.osChg) c.os.min) c.os.max
         else min (max (k.osV - st.osDis) c.os.min) c.os.max)
      else k.osV) ∧
    ∀ osEff, osEff = (if p.extEn.getLsbD 0 = false then t.osV else p.osExtV) →
      (osEff ≥ c.os.max → t.osRun = false) ∧ (¬ osEff ≥ c.os.max → t.osRun = k.osRun)

/-- The SLF in a sub-step: it charges while `SLF_FF` is 0; the flip-flop sets at MAX, else clears at
MIN, else keeps its value. -/
def Obligations.SlfSubstep : Prop :=
  ∀ (c : Config) (p : Params) (sr : ℕ+) (st : Steps) (f : ℤ) (k t : CircuitState),
    t = (substep c p sr st f k).1 →
    t.slfV = (if p.extEn.getLsbD 1 = false then
        (if k.slfFf = false then min (max (k.slfV + st.slfChg) c.slf.min) c.slf.max
         else min (max (k.slfV - st.slfDis) c.slf.min) c.slf.max)
      else k.slfV) ∧
    ∀ slfEff, slfEff = (if p.extEn.getLsbD 1 = false then t.slfV else p.slfExtV) →
      (slfEff ≥ c.slf.max → t.slfFf = true) ∧
      (¬ slfEff ≥ c.slf.max ∧ slfEff ≤ c.slf.min → t.slfFf = false) ∧
      (¬ slfEff ≥ c.slf.max ∧ ¬ slfEff ≤ c.slf.min → t.slfFf = k.slfFf)

/-- The VCO in a sub-step: the ceiling from this sub-step's SLF result, the charge stopped at the
ceiling, the flip-flop and the alternate-polarity toggle, and the auxiliary value. -/
def Obligations.VcoSubstep : Prop :=
  ∀ (c : Config) (p : Params) (sr : ℕ+) (st : Steps) (f : ℤ) (k t : CircuitState),
    t = (substep c p sr st f k).1 →
    ∀ ceiling, ceiling = (if p.vcoMode = .internal then
        (if p.extEn.getLsbD 1 = false then t.slfV else p.slfExtV) + c.vcoOffset
      else c.vcoOffset) →
    t.vcoV = (if p.extEn.getLsbD 2 = false then
        (if k.vcoFf = false then
          min (max (min (k.vcoV + st.vcoChg) ceiling) c.vco.min) c.vco.max
         else min (max (k.vcoV - st.vcoDis) c.vco.min) c.vco.max)
      else k.vcoV) ∧
    ∀ vcoEff, vcoEff = (if p.extEn.getLsbD 2 = false then t.vcoV else p.vcoExtV) →
      (vcoEff ≥ ceiling → t.vcoFf = true ∧
        (k.vcoFf = false → t.vcoAlt = !k.vcoAlt) ∧ (k.vcoFf = true → t.vcoAlt = k.vcoAlt)) ∧
      (¬ vcoEff ≥ ceiling ∧ vcoEff ≤ c.vco.min → t.vcoFf = false ∧ t.vcoAlt = k.vcoAlt) ∧
      (¬ vcoEff ≥ ceiling ∧ ¬ vcoEff ≤ c.vco.min → t.vcoFf = k.vcoFf ∧ t.vcoAlt = k.vcoAlt) ∧
      (substep c p sr st f k).2.2 = vcoEff

/-- The noise filter in a sub-step: `RNG[30]`, after this sub-step's clocks, charges or discharges the
capacitor; then the comparator, high voltage giving 0. -/
def Obligations.NoiseFilterSubstep : Prop :=
  ∀ (c : Config) (p : Params) (sr : ℕ+) (st : Steps) (f : ℤ) (k t : CircuitState),
    t = (substep c p sr st f k).1 →
    t.nfV = (if t.rng.getLsbD 30 = true then min (max (k.nfV + st.nfChg) c.nf.min) c.nf.max
      else min (max (k.nfV - st.nfDis) c.nf.min) c.nf.max) ∧
    (t.nfV ≥ c.nfThHigh → t.fnoiseFf = false) ∧
    (¬ t.nfV ≥ c.nfThHigh ∧ t.nfV ≤ c.nfThLow → t.fnoiseFf = true) ∧
    (¬ t.nfV ≥ c.nfThHigh ∧ ¬ t.nfV ≤ c.nfThLow → t.fnoiseFf = k.fnoiseFf)

/-- The envelope in a sub-step: the direction from the mode and the flip-flops stages 1 and 3 of this
sub-step left; a ramp while the step is positive, a snap to the extreme when it is zero. -/
def Obligations.EnvelopeSubstep : Prop :=
  ∀ (c : Config) (p : Params) (sr : ℕ+) (st : Steps) (f : ℤ) (k t : CircuitState),
    t = (substep c p sr st f k).1 →
    ∀ charging : Bool,
      (p.envMode = .vco → charging = t.vcoFf) → (p.envMode = .oneShot → charging = t.osRun) →
      (p.envMode = .mixerOnly → charging = true) →
      (p.envMode = .vcoAltPolarity → charging = (t.vcoFf && t.vcoAlt)) →
    t.adV = (if charging = true then
        (if st.adChg > 0 then min (max (k.adV + st.adChg) c.ad.min) c.ad.max else c.ad.max)
      else
        (if st.adDis > 0 then min (max (k.adV - st.adDis) c.ad.min) c.ad.max else c.ad.min))

/-- The output stage of a sub-step: gate, mixer bit, table index, gain, one-sided clip and rescaling,
over the state the other stages left; `aux` is `vco_eff`. -/
def Obligations.OutputSubstep : Prop :=
  ∀ (c : Config) (p : Params) (sr : ℕ+) (st : Steps) (f : ℤ) (k t : CircuitState) (sample : ℤ)
    (aux : Voltage), substep c p sr st f k = (t, sample, aux) →
    ∃ idx : Fin 45, (idx.val : ℤ) = min (max ⌊t.adV * 10⌋ 0) 44 ∧
    ∃ vout : Voltage,
      vout = (if p.enableN = false ∧ aux ≤ c.vco.max then
          (if mixerBit p.mixer t.vcoFf t.slfFf t.fnoiseFf = true then
            min (c.outCenter + c.peakGain * c.posGain.get idx) c.outClipHigh
           else max (c.outCenter + c.peakGain * c.negGain.get idx) c.outClipLow)
        else c.outCenter) ∧
      sample = trunc (((vout - c.outClipLow) / (c.outCenter - c.outClipLow) - 1) *
        ((c.fullScale : ℕ) : ℚ))

/-- The mixer's bit: the source's table of the eight modes, bit 0 of the mode being the VCO's enable,
bit 1 the SLF's and bit 2 the noise's; for a non-zero mode it is the AND of the selected sources. -/
def Obligations.MixerTruthTable : Prop :=
  ∀ v s n : Bool,
    mixerBit 0#3 v s n = false ∧ mixerBit 1#3 v s n = v ∧ mixerBit 2#3 v s n = s ∧
    mixerBit 3#3 v s n = (v && s) ∧ mixerBit 4#3 v s n = n ∧ mixerBit 5#3 v s n = (v && n) ∧
    mixerBit 6#3 v s n = (s && n) ∧ mixerBit 7#3 v s n = (v && s && n) ∧
    ∀ mode : BitVec 3, mode ≠ 0#3 → mixerBit mode v s n =
      ((!mode.getLsbD 0 || v) && (!mode.getLsbD 1 || s) && (!mode.getLsbD 2 || n))

/-- `trunc` discards the fractional part, rounding toward zero. -/
def Obligations.TruncRoundsTowardZero : Prop :=
  ∀ x : ℚ, (0 ≤ x → 0 ≤ trunc x ∧ (trunc x : ℚ) ≤ x ∧ x < trunc x + 1) ∧
    (x ≤ 0 → trunc x ≤ 0 ∧ x ≤ (trunc x : ℚ) ∧ (trunc x : ℚ) - 1 < x)

/-! ### The Rate Computer -/

/-- The presence policy and the per-sub-step step. -/
def Obligations.PresencePolicy : Prop :=
  ∀ (f : Component → Component → Component) (r k : Component),
    (0 < r.val ∧ 0 < k.val → rate f r k = (f r k).val) ∧
    (r.val = 0 ∧ 0 < k.val → rate f r k = 1 / 10 ^ 30) ∧
    (0 < r.val ∧ k.val = 0 → rate f r k = 10 ^ 30) ∧
    (r.val = 0 ∧ k.val = 0 → rate f r k = 0) ∧
    (∀ (sr : ℕ+) (q : ℚ), stepOf sr q * ((sr : ℕ) : ℚ) = q ∧ (stepOf sr q = 0 ↔ q = 0))

/-- The ten steps: each stage's fitted function under the presence policy, of that stage's resistance
and capacitance, over SAMPLE_RATE; for the VCO these are the base steps. -/
def Obligations.TheTenSteps : Prop :=
  ∀ (c : Config) (p : Params) (sr : ℕ+) (st : Steps) (q : ℚ), st = computeSteps c p sr →
    q = ((sr : ℕ) : ℚ) →
    st.osChg = rate c.fOsChg p.osRes p.osCap / q ∧ st.osDis = rate c.fOsDis p.osRes p.osCap / q ∧
    st.slfChg = rate c.fSlfChg p.slfRes p.slfCap / q ∧
    st.slfDis = rate c.fSlfDis p.slfRes p.slfCap / q ∧
    vcoChgBase c p sr = rate c.fVcoChg p.vcoRes p.vcoCap / q ∧
    vcoDisBase c p sr = rate c.fVcoDis p.vcoRes p.vcoCap / q ∧
    st.nfChg = rate c.fNfChg p.noiseFilterRes p.noiseFilterCap / q ∧
    st.nfDis = rate c.fNfDis p.noiseFilterRes p.noiseFilterCap / q ∧
    st.adChg = rate c.fAdChg p.attackRes p.adCap / q ∧
    st.adDis = rate c.fAdDis p.decayRes p.adCap / q

/-- Every one of the ten steps is `>= 0`, for every Parameter Store and SAMPLE_RATE. -/
def Obligations.StepsAreNonnegative : Prop :=
  ∀ (c : Config) (p : Params) (sr : ℕ+) (st : Steps), st = computeSteps c p sr →
    0 ≤ st.osChg ∧ 0 ≤ st.osDis ∧ 0 ≤ st.slfChg ∧ 0 ≤ st.slfDis ∧ 0 ≤ st.vcoChg ∧ 0 ≤ st.vcoDis ∧
    0 ≤ st.nfChg ∧ 0 ≤ st.nfDis ∧ 0 ≤ st.adChg ∧ 0 ≤ st.adDis

/-- The duty cycle: the formula, the zero divisor, the range `[18/100, 1]`, a negative ratio. -/
def Obligations.DutyCycle : Prop :=
  ∀ p : Params, (p.vcoVoltage = 0 → duty p = 1 / 2) ∧
    (p.vcoVoltage ≠ 0 →
      duty p = min (max (max (1 / 2 * p.pitchVoltage / p.vcoVoltage) (18 / 100)) 0) 1) ∧
    18 / 100 ≤ duty p ∧ duty p ≤ 1 ∧
    (p.pitchVoltage / p.vcoVoltage < 0 → duty p = 18 / 100)

/-- The duty multiplier, the VCO's steps and the sentinel division. -/
def Obligations.DutyMultiplierAndSentinelDivision : Prop :=
  ∀ (c : Config) (p : Params) (sr : ℕ+) (m : ℚ), m = (1 - duty p) * 2 →
    0 ≤ m ∧ m ≤ 41 / 25 ∧
    (m ≠ 0 → (computeSteps c p sr).vcoChg * m = vcoChgBase c p sr) ∧
    (m = 0 ∧ vcoChgBase c p sr = 0 → (computeSteps c p sr).vcoChg = 0) ∧
    (m = 0 ∧ 0 < vcoChgBase c p sr → (computeSteps c p sr).vcoChg = 10 ^ 30) ∧
    (computeSteps c p sr).vcoDis = vcoDisBase c p sr * m ∧
    (duty p = 1 / 2 → (computeSteps c p sr).vcoChg = vcoChgBase c p sr ∧
      (computeSteps c p sr).vcoDis = vcoDisBase c p sr)

/-! ### The noise generator -/

/-- One noise clock, bit by bit: the register shifts right by one and the new bit enters at bit 30;
the new bit is the taps' XOR, or 1 when bits 0 to 4 and 28 are all 0. -/
def Obligations.NoiseClockBits : Prop :=
  ∀ r : NoiseReg,
    (∀ i, i < 30 → (noiseClock r).getLsbD i = r.getLsbD (i + 1)) ∧
    ((∀ i ∈ [0, 1, 2, 3, 4, 28], r.getLsbD i = false) → (noiseClock r).getLsbD 30 = true) ∧
    ((∃ i ∈ [0, 1, 2, 3, 4, 28], r.getLsbD i = true) →
      (noiseClock r).getLsbD 30 = Bool.xor (r.getLsbD 28) (r.getLsbD 0))

/-- The generation frequency: the floor of the fitted value inside the inclusive range, else 0. -/
def Obligations.NoiseFrequency : Prop :=
  ∀ (c : Config) (p : Params),
    (c.noiseRMin ≤ p.noiseClockRes.val ∧ p.noiseClockRes.val ≤ c.noiseRMax →
      noiseFreq c p = ⌊(c.fNoise p.noiseClockRes).val⌋) ∧
    (p.noiseClockRes.val < c.noiseRMin ∨ c.noiseRMax < p.noiseClockRes.val → noiseFreq c p = 0) ∧
    (p.noiseClockRes.val = 0 → noiseFreq c p = 0) ∧ 0 ≤ noiseFreq c p

/-- The noise counter of a sub-step is the `while` loop of the rule, run to its own end, then the
subtraction and the clamp; at frequency 0 no bit is generated. -/
def Obligations.NoiseCounterIsTheWhileLoop : Prop :=
  ∀ (c : Config) (p : Params) (sr : ℕ+) (st : Steps) (f : ℤ) (k t : CircuitState),
    t = (substep c p sr st f k).1 →
    (0 < f → ∃ m y, NoiseWhile f ((sr : ℕ) : ℤ) (k.ncnt, k.rng) m y ∧
      t.ncnt = min (y.1 - f) ((c.noiseCountMax : ℕ) : ℤ) ∧ t.rng = y.2) ∧
    (f ≤ 0 → t.ncnt = min k.ncnt ((c.noiseCountMax : ℕ) : ℤ) ∧ t.rng = k.rng)

/-- Bounds of the loop and the counter in a sub-step from a counter `>= 0`. The counter afterwards is at
most `min(max(NCNT_before, SAMPLE_RATE), NOISE_COUNT_MAX)`. At a positive frequency the loop ends, in one
way only, after at most `floor(freq / SAMPLE_RATE) + 1` rounds, none when the counter already exceeds
the frequency; the register is clocked once a round, and the counter is what that many rounds and the
subtraction leave, clamped, and at least 1. -/
def Obligations.NoiseLoopBounds : Prop :=
  ∀ (c : Config) (p : Params) (sr : ℕ+) (st : Steps) (f : ℤ) (k t : CircuitState),
    t = (substep c p sr st f k).1 → 0 ≤ k.ncnt →
    t.ncnt ≤ min (max k.ncnt ((sr : ℕ) : ℤ)) ((c.noiseCountMax : ℕ) : ℤ) ∧
    (0 < f → 1 ≤ t.ncnt ∧
      ∃ (m : ℕ) (y : ℤ × NoiseReg), NoiseWhile f ((sr : ℕ) : ℤ) (k.ncnt, k.rng) m y ∧
        (∀ m' y', NoiseWhile f ((sr : ℕ) : ℤ) (k.ncnt, k.rng) m' y' → m' = m ∧ y' = y) ∧
        (m : ℤ) ≤ f / ((sr : ℕ) : ℤ) + 1 ∧ (f < k.ncnt → m = 0) ∧
        t.rng = noiseClock^[m] k.rng ∧
        t.ncnt = min (k.ncnt + m * ((sr : ℕ) : ℤ) - f) ((c.noiseCountMax : ℕ) : ℤ))

/-- The register is never left producing zeros for ever: from every pattern a 1 is shifted in within
32 clocks. -/
def Obligations.NoiseNeverStalls : Prop :=
  ∀ r : NoiseReg, ∃ k, 1 ≤ k ∧ k ≤ 32 ∧ rawBit (noiseClock^[k] r) = true

/-- The register moves by clocks alone: after any command but INIT it is its former value clocked some
number of times, none at all unless the command is an UPDATE with a positive frequency. -/
def Obligations.NoiseRegisterMovesByClocks : Prop :=
  ∀ (i : Instr) (s t : State), exec i s = .next t → i ≠ .init →
    ∃ m, t.circuit.rng = noiseClock^[m] s.circuit.rng ∧
      (noiseFreq Config.cfg s.params = 0 ∨ (∀ n, i ≠ .update n) → m = 0)

/-! ### Invariants -/

/-- Every capacitor register is within its range after reset, and stays there in every sub-step and in
every step of the machine, whatever the parameters and external voltages. -/
def Obligations.CapacitorRangesAreKept : Prop :=
  State.reset.circuit.InRange Config.cfg ∧
  (∀ (c : Config) (p : Params) (sr : ℕ+) (st : Steps) (f : ℤ) (k : CircuitState),
    k.InRange c → (substep c p sr st f k).1.InRange c) ∧
  (∀ s t : State, s.circuit.InRange Config.cfg → step s = .next t → t.circuit.InRange Config.cfg)

/-- `0 <= NCNT <= NOISE_COUNT_MAX` is kept by every step, and every sub-step from a counter `>= 0`
(even one above the bound) restores it. -/
def Obligations.NoiseCounterBoundsAreKept : Prop :=
  (∀ (c : Config) (p : Params) (sr : ℕ+) (st : Steps) (f : ℤ) (k : CircuitState),
    0 ≤ k.ncnt → (substep c p sr st f k).1.CounterBounded c) ∧
  (∀ s t : State, s.circuit.CounterBounded Config.cfg → step s = .next t →
    t.circuit.CounterBounded Config.cfg)

/-- No sample is wrapped or saturated at the port: the held sample stays a two's-complement integer
of `SAMPLE_W` bits in every step, so the wires show exactly it. -/
def Obligations.SamplesFitThePort : Prop :=
  ∀ s t : State, s.SampleFits → step s = .next t → t.SampleFits ∧ t.samplePort.toInt = t.rsp.sample

/-- The machine's whole invariant holds at reset: the capacitor ranges, the counter's bounds, and the
held sample's fitting `SAMPLE_W` bits, a width that is the model's (log entry 13). -/
def Obligations.ResetMeetsTheInvariant : Prop := State.reset.Inv

/-- Every step keeps the machine's whole invariant, from any state that meets it and whatever the host
presents: the capacitor ranges, the counter's bounds, and the held sample's fitting `SAMPLE_W` bits, a
width that is the model's (log entry 13). -/
def Obligations.StepKeepsTheInvariant : Prop :=
  ∀ s t : State, s.Inv → step s = .next t → t.Inv

/-- Every state a run from reset reaches, whatever the host presents, meets the invariant; its part on
the held sample is about the model's `SAMPLE_W` (log entry 13). -/
def Obligations.ReachableStatesMeetTheInvariant : Prop := ∀ s : State, Reachable s → s.Inv

/-! ### Behaviour over many sub-steps -/

/-- One-shot shape: while running and not overridden the voltage never falls and the flag falls in
the very sub-step that reaches MAX; while not running it never rises and the flag stays 0. -/
def Obligations.OneShotShape : Prop :=
  ∀ (c : Config) (p : Params) (sr : ℕ+) (k t : CircuitState), k.InRange c →
    p.extEn.getLsbD 0 = false → t = nextCircuit c p sr k →
    (k.osRun = true → k.osV ≤ t.osV ∧ (t.osRun = false ↔ t.osV = c.os.max)) ∧
    (k.osRun = false → t.osV ≤ k.osV ∧ t.osRun = false)

/-- The pulse length: a running one-shot at `v0` is still running, at `v0 + j * step`, as long as no
earlier or equal count has reached MAX, and its flag falls at the first count `j >= 1` with
`v0 + j * step >= MAX`. -/
def Obligations.OneShotPulseLength : Prop :=
  ∀ (c : Config) (p : Params) (sr : ℕ+) (k : CircuitState) (d : ℚ), k.InRange c →
    p.extEn.getLsbD 0 = false → k.osRun = true → d = (computeSteps c p sr).osChg → 0 < d →
    ∀ j : ℕ,
      ((∀ i : ℕ, 1 ≤ i → i ≤ j → k.osV + i * d < c.os.max) →
        ((nextCircuit c p sr)^[j] k).osRun = true ∧
        ((nextCircuit c p sr)^[j] k).osV = k.osV + j * d) ∧
      (1 ≤ j → (∀ i : ℕ, 1 ≤ i → i < j → k.osV + i * d < c.os.max) → c.os.max ≤ k.osV + j * d →
        ((nextCircuit c p sr)^[j] k).osRun = false ∧
        ((nextCircuit c p sr)^[j] k).osV = c.os.max)

/-- The SLF's rise: from MIN with the flip-flop 0, the voltage is `MIN + j * step` and the flip-flop 0
until the first count that reaches MAX, where the voltage is MAX and the flip-flop 1. -/
def Obligations.SlfRiseTime : Prop :=
  ∀ (c : Config) (p : Params) (sr : ℕ+) (k : CircuitState) (d : ℚ), c.slf.min < c.slf.max →
    k.slfV = c.slf.min → k.slfFf = false → p.extEn.getLsbD 1 = false →
    d = (computeSteps c p sr).slfChg → 0 < d →
    ∀ j : ℕ,
      (c.slf.min + j * d < c.slf.max →
        ((nextCircuit c p sr)^[j] k).slfV = c.slf.min + j * d ∧
        ((nextCircuit c p sr)^[j] k).slfFf = false) ∧
      (c.slf.max ≤ c.slf.min + j * d → c.slf.min + ((j : ℚ) - 1) * d < c.slf.max →
        ((nextCircuit c p sr)^[j] k).slfV = c.slf.max ∧
        ((nextCircuit c p sr)^[j] k).slfFf = true)

/-- In `MIXER_ONLY` mode the envelope only rises: with a positive charge step it is the ramp cut off
at MAX after any number of sub-steps, with a zero step it is at MAX from the first. -/
def Obligations.EnvelopeSaturates : Prop :=
  ∀ (c : Config) (p : Params) (sr : ℕ+) (k : CircuitState) (d : ℚ), k.InRange c →
    p.envMode = .mixerOnly → d = (computeSteps c p sr).adChg →
    ∀ j : ℕ,
      (0 < d → ((nextCircuit c p sr)^[j] k).adV = min (k.adV + j * d) c.ad.max) ∧
      (d = 0 → 1 ≤ j → ((nextCircuit c p sr)^[j] k).adV = c.ad.max)

/-- Under override an UPDATE does not write the stage's capacitor register, and the auxiliary value is
the VCO's external voltage, unscaled and ungated. -/
def Obligations.OverrideFreezesTheRegister : Prop :=
  ∀ (n : ℕ) (s : State), ∃ t, exec (.update n) s = .next t ∧
    (s.params.extEn.getLsbD 0 = true → t.circuit.osV = s.circuit.osV) ∧
    (s.params.extEn.getLsbD 1 = true → t.circuit.slfV = s.circuit.slfV) ∧
    (s.params.extEn.getLsbD 2 = true →
      t.circuit.vcoV = s.circuit.vcoV ∧ t.rsp.aux = s.params.vcoExtV) ∧
    (s.params.extEn.getLsbD 2 = false → t.rsp.aux = t.circuit.vcoV)

/-- `VCO_ALT` toggles exactly in the sub-steps in which `VCO_FF` goes from 0 to 1. -/
def Obligations.VcoAltTogglesOnRisingEdgesOnly : Prop :=
  ∀ (c : Config) (p : Params) (sr : ℕ+) (k t : CircuitState), t = nextCircuit c p sr k →
    (t.vcoAlt ≠ k.vcoAlt ↔ k.vcoFf = false ∧ t.vcoFf = true)

/-- With both components unset the one-shot's, the SLF's and the filter's registers do not move in an
UPDATE, and the envelope snaps to an extreme. An unset VCO's register, which a falling ceiling pulls
down, is unmoved in a sub-step whose ceiling is not below it or whose flip-flop is 1, and else goes down
to the ceiling or to MIN. -/
def Obligations.UnsetComponentsStandStill : Prop :=
  (∀ (n : ℕ) (s t : State), s.circuit.InRange Config.cfg → exec (.update n) s = .next t →
    (s.params.osRes.val = 0 ∧ s.params.osCap.val = 0 → t.circuit.osV = s.circuit.osV) ∧
    (s.params.slfRes.val = 0 ∧ s.params.slfCap.val = 0 → t.circuit.slfV = s.circuit.slfV) ∧
    (s.params.noiseFilterRes.val = 0 ∧ s.params.noiseFilterCap.val = 0 →
      t.circuit.nfV = s.circuit.nfV) ∧
    (s.params.attackRes.val = 0 ∧ s.params.decayRes.val = 0 ∧ s.params.adCap.val = 0 →
      t.circuit.adV = Config.cfg.ad.max ∨ t.circuit.adV = Config.cfg.ad.min)) ∧
  (∀ (c : Config) (p : Params) (sr : ℕ+) (k t : CircuitState), k.InRange c →
    p.vcoRes.val = 0 → p.vcoCap.val = 0 → t = nextCircuit c p sr k →
    ∀ ceiling, ceiling = (if p.vcoMode = .internal then
        (if p.extEn.getLsbD 1 = false then t.slfV else p.slfExtV) + c.vcoOffset
      else c.vcoOffset) →
    (k.vcoV ≤ ceiling ∨ k.vcoFf = true ∨ p.extEn.getLsbD 2 = true → t.vcoV = k.vcoV) ∧
    (ceiling < k.vcoV ∧ k.vcoFf = false ∧ p.extEn.getLsbD 2 = false →
      t.vcoV = max ceiling c.vco.min))

/-- Disabled output: `ENABLE_N = 1` makes every UPDATE respond the sample 0, whatever the rest of the
state. -/
def Obligations.DisabledOutputIsSilent : Prop :=
  ∀ (n : ℕ) (s : State), s.params.enableN = true →
    ∃ t, exec (.update n) s = .next t ∧ t.rsp.valid = true ∧ t.rsp.sample = 0

/-- The sample's range, when no gain takes the output away from its branch's side of the centre. -/
def Obligations.SampleBounds : Prop :=
  ∀ (c : Config) (p : Params) (sr : ℕ+) (k : CircuitState),
    (∀ i : Fin 45, 0 ≤ c.peakGain * c.posGain.get i ∧ c.peakGain * c.negGain.get i ≤ 0) →
    -((c.fullScale : ℕ) : ℤ) ≤ (runUpdate c p sr k).2.1 ∧
    (runUpdate c p sr k).2.1 ≤
      trunc (((c.outClipHigh - c.outClipLow) / (c.outCenter - c.outClipLow) - 1) *
        ((c.fullScale : ℕ) : ℚ))

/-- A parameter write is effective from the next UPDATE and only there: any run of commands other than
UPDATE leaves the response alone, and the UPDATE after it computes from the parameters, the rate and
the CircuitState that run left. -/
def Obligations.UpdateSeesTheLatestParameters : Prop :=
  ∀ (is : List Instr) (n : ℕ) (s t : State), (∀ i ∈ is, ∀ m, i ≠ .update m) → Executes is s t →
    t.rsp = s.rsp ∧
    ∃ u, Executes (is ++ [.update n]) s u ∧
      u.circuit = (runUpdate Config.cfg t.params t.sampleRate t.circuit).1 ∧
      (u.rsp.sample, u.rsp.aux) = (runUpdate Config.cfg t.params t.sampleRate t.circuit).2 ∧
      u.params = t.params ∧ u.sampleRate = t.sampleRate

/-- The pseudo-instructions: each expansion completes from every state, and leaves in the slots it
names what its operands say; `setmix` puts the VCO, SLF and noise enables in bits 0, 1 and 2. -/
def Obligations.PseudoInstructionsExpand : Prop :=
  ∀ s : State,
    (∀ ps : Pseudo, ∃ t, Executes (expandPseudo ps) s t) ∧
    (∀ r c t, Executes (expandPseudo (.setos r c)) s t →
      t.params.osRes = r ∧ t.params.osCap = c) ∧
    (∀ r c t, Executes (expandPseudo (.setslf r c)) s t →
      t.params.slfRes = r ∧ t.params.slfCap = c) ∧
    (∀ r c t, Executes (expandPseudo (.setvco r c)) s t →
      t.params.vcoRes = r ∧ t.params.vcoCap = c) ∧
    (∀ r c t, Executes (expandPseudo (.setnf r c)) s t →
      t.params.noiseFilterRes = r ∧ t.params.noiseFilterCap = c) ∧
    (∀ a d c t, Executes (expandPseudo (.setad a d c)) s t →
      t.params.attackRes = a ∧ t.params.decayRes = d ∧ t.params.adCap = c) ∧
    (∀ v w n t, Executes (expandPseudo (.setmix v w n)) s t →
      t.params.mixer.getLsbD 0 = v ∧ t.params.mixer.getLsbD 1 = w ∧
      t.params.mixer.getLsbD 2 = n) ∧
    (∀ t, Executes (expandPseudo .enable) s t → t.params.enableN = false) ∧
    (∀ t, Executes (expandPseudo .disable) s t → t.params.enableN = true) ∧
    (∀ t, Executes (expandPseudo .update) s t → exec (.update 1) s = .next t)
end

