-- ==== Sys2Proof/Laws/Config.lean ====
section
/-! SUPPORT. The configuration type is exactly the well-formed configurations of 00_scope.md rule
R14: every value of it is well formed, and every well-formed set of values is some value's. -/

namespace Sys2Proof

theorem PosRat.val_pos (p : PosRat) : 0 < p.val := by
  unfold PosRat.val
  positivity

/-- `PosRat` has every positive rational. -/
theorem PosRat.exists_eq_val {q : ℚ} (h : 0 < q) : ∃ p : PosRat, p.val = q := by
  have hn : 0 < q.num := Rat.num_pos.mpr h
  refine ⟨⟨q.num.toNat - 1, q.den - 1⟩, ?_⟩
  have h1 : ((q.num.toNat - 1 : ℕ) : ℚ) + 1 = q.num := by
    have : (q.num.toNat - 1 + 1 : ℕ) = q.num.toNat := by omega
    have h2 : ((q.num.toNat - 1 : ℕ) : ℚ) + 1 = (q.num.toNat : ℚ) := by exact_mod_cast this
    rw [h2]
    exact_mod_cast Int.toNat_of_nonneg hn.le
  have h3 : ((q.den - 1 : ℕ) : ℚ) + 1 = q.den := by
    have := q.den_pos
    exact_mod_cast Nat.sub_add_cancel this
  simp only [PosRat.val, h1, h3, Rat.num_div_den]

theorem VoltageRange.min_le_max (r : VoltageRange) : r.min ≤ r.max :=
  le_add_of_nonneg_right r.span.property

theorem VoltageRange.exists_eq {lo hi : ℚ} (h : lo ≤ hi) :
    ∃ r : VoltageRange, r.min = lo ∧ r.max = hi :=
  ⟨⟨lo, ⟨hi - lo, sub_nonneg.mpr h⟩⟩, rfl, by simp [VoltageRange.max]⟩

theorem Config.nfThLow_lt_nfThHigh (c : Config) : c.nfThLow < c.nfThHigh :=
  lt_add_of_pos_right _ c.nfThGap.val_pos

theorem Config.outClipLow_lt_outCenter (c : Config) : c.outClipLow < c.outCenter :=
  lt_add_of_pos_right _ c.outCenterGap.val_pos

theorem Config.outCenter_le_outClipHigh (c : Config) : c.outCenter ≤ c.outClipHigh :=
  le_add_of_nonneg_right c.outClipHighSpan.property

theorem Config.noiseRMin_pos (c : Config) : 0 < c.noiseRMin := c.noiseRMinPos.val_pos

theorem Config.noiseRMin_le_noiseRMax (c : Config) : c.noiseRMin ≤ c.noiseRMax :=
  le_add_of_nonneg_right c.noiseRSpan.property

theorem Config.three_le_payW (c : Config) : 3 ≤ c.payW := Nat.le_add_right 3 _

/-- Every configuration is well formed (rule R14). -/
theorem Config.values_wellFormed (c : Config) : c.values.wellFormed = true := by
  simp [ConfigValues.wellFormed, Config.values, VoltageRange.min_le_max, c.nfThLow_lt_nfThHigh,
    c.outClipLow_lt_outCenter, c.outCenter_le_outClipHigh, c.noiseRMin_pos,
    c.noiseRMin_le_noiseRMax, Nat.one_le_iff_ne_zero]

/-- Every well-formed set of values is some configuration's (rule R14): the type leaves none out. -/
theorem Config.exists_of_wellFormed {v : ConfigValues} (h : v.wellFormed = true) :
    ∃ c : Config, c.values = v := by
  simp only [ConfigValues.wellFormed, Bool.and_eq_true, decide_eq_true_eq, beq_iff_eq] at h
  obtain ⟨⟨⟨⟨⟨⟨h1, ⟨⟨⟨hos, hslf⟩, hvco⟩, hnf⟩, had⟩, hth⟩, hcl, hch⟩, hr0, hr1⟩,
    ⟨hfs, hsr⟩, hnc⟩, hp, hn⟩ := h
  obtain ⟨os, hos1, hos2⟩ := VoltageRange.exists_eq hos
  obtain ⟨slf, hslf1, hslf2⟩ := VoltageRange.exists_eq hslf
  obtain ⟨vco, hvco1, hvco2⟩ := VoltageRange.exists_eq hvco
  obtain ⟨nf, hnf1, hnf2⟩ := VoltageRange.exists_eq hnf
  obtain ⟨ad, had1, had2⟩ := VoltageRange.exists_eq had
  obtain ⟨gap, hgap⟩ := PosRat.exists_eq_val (sub_pos.mpr hth)
  obtain ⟨cgap, hcgap⟩ := PosRat.exists_eq_val (sub_pos.mpr hcl)
  obtain ⟨rmin, hrmin⟩ := PosRat.exists_eq_val hr0
  refine ⟨{ (default : Config) with
    nSub := ⟨v.nSub, h1⟩, os, slf, vco, nf, ad, nfThLow := v.nfThLow, nfThGap := gap
    noiseRMinPos := rmin, noiseRSpan := ⟨v.noiseRMax - v.noiseRMin, sub_nonneg.mpr hr1⟩
    outClipLow := v.outClipLow, outCenterGap := cgap
    outClipHighSpan := ⟨v.outClipHigh - v.outCenter, sub_nonneg.mpr hch⟩
    fullScale := ⟨v.fullScale, hfs⟩, sampleRateReset := ⟨v.sampleRateReset, hsr⟩
    noiseCountMax := ⟨v.noiseCountMax, hnc⟩
    posGain := ⟨v.posGain.toArray, by simpa using hp⟩
    negGain := ⟨v.negGain.toArray, by simpa using hn⟩ }, ?_⟩
  cases v
  simp_all [Config.values, Config.nfThHigh, Config.outCenter, Config.outClipHigh,
    Config.noiseRMin, Config.noiseRMax]

end Sys2Proof
end

