-- ==== Sys2Proof/Laws/Ops.lean ====
section
/-! SUPPORT. For each shared operation, once, everything it can do. -/

namespace Sys2Proof.Machine

theorem clamp_le {x lo hi : ℚ} : clamp x lo hi ≤ hi := min_le_right _ _

theorem le_clamp {x lo hi : ℚ} (h : lo ≤ hi) : lo ≤ clamp x lo hi :=
  le_min (le_max_right _ _) h

theorem clamp_of_mem {x lo hi : ℚ} (h₁ : lo ≤ x) (h₂ : x ≤ hi) : clamp x lo hi = x := by
  rw [clamp, max_eq_left h₁, min_eq_left h₂]

theorem clamp_of_ge {x lo hi : ℚ} (h : hi ≤ x) : clamp x lo hi = hi := by
  rw [clamp, min_eq_right (h.trans (le_max_left _ _))]

theorem clamp_of_le {x lo hi : ℚ} (h : x ≤ lo) (hr : lo ≤ hi) : clamp x lo hi = lo := by
  rw [clamp, max_eq_right h, min_eq_left hr]

/-- A value clamped from above the lower end is the smaller of itself and the upper end. -/
theorem clamp_eq_min {x lo hi : ℚ} (h : lo ≤ x) : clamp x lo hi = min x hi := by
  rw [clamp, max_eq_left h]

/-- A value clamped from below the upper end is the larger of itself and the lower end. -/
theorem clamp_eq_max {x lo hi : ℚ} (h : x ≤ hi) (hr : lo ≤ hi) : clamp x lo hi = max x lo := by
  rw [clamp, min_eq_left (max_le h hr)]

@[simp] theorem trunc_zero : trunc 0 = 0 := by simp [trunc]

/-- A capacitor movement lands in the range. -/
theorem moveCapacitor_mem (r : VoltageRange) (h : r.min ≤ r.max) (b : Bool) (v chg dis : ℚ) :
    r.min ≤ moveCapacitor r b v chg dis ∧ moveCapacitor r b v chg dis ≤ r.max := by
  unfold moveCapacitor
  split <;> exact ⟨le_clamp h, clamp_le⟩

/-- What the override does to the pair (register, effective voltage). -/
theorem withOverride_cases (b : Bool) (ext old updated : ℚ) :
    (b = true ∧ withOverride b ext old updated = (old, ext)) ∨
    (b = false ∧ withOverride b ext old updated = (updated, updated)) := by
  cases b <;> simp [withOverride]

/-- The register under the override is in any set that holds the old and the updated value. -/
theorem withOverride_fst {P : ℚ → Prop} {b : Bool} {ext old updated : ℚ} (h₁ : P old)
    (h₂ : P updated) : P (withOverride b ext old updated).1 := by
  cases b
  · exact h₂
  · exact h₁

/-- An envelope movement lands in the range. -/
theorem envMove_mem (c : Config) (h : c.ad.min ≤ c.ad.max) (b : Bool) (v chg dis : ℚ) :
    c.ad.min ≤ envMove c b v chg dis ∧ envMove c b v chg dis ≤ c.ad.max := by
  unfold envMove
  by_cases hb : b = true
  · rw [if_pos hb]
    split
    · exact ⟨le_clamp h, clamp_le⟩
    · exact ⟨h, le_refl _⟩
  · rw [if_neg hb]
    split
    · exact ⟨le_clamp h, clamp_le⟩
    · exact ⟨le_refl _, h⟩

/-- The loop, whatever its fuel: some number of rounds, each of which passed the test. -/
theorem noiseLoop_cases (freq sr : ℤ) (fuel : ℕ) (x : ℤ × NoiseReg) :
    ∃ m ≤ fuel, noiseLoop freq sr fuel x = (x.1 + m * sr, noiseClock^[m] x.2) ∧
      (m = fuel ∨ freq < x.1 + m * sr) := by
  induction fuel generalizing x with
  | zero => exact ⟨0, le_refl 0, by simp [noiseLoop], .inl rfl⟩
  | succ fuel ih =>
    by_cases h : x.1 ≤ freq
    · obtain ⟨m, hm, he, hx⟩ := ih (x.1 + sr, noiseClock x.2)
      refine ⟨m + 1, by omega, ?_, ?_⟩
      · simp only [noiseLoop, h, if_true, he, Function.iterate_succ_apply]
        push_cast
        exact Prod.ext (by ring) rfl
      · rcases hx with rfl | hx
        · exact .inl rfl
        · refine .inr ?_
          push_cast
          linarith
    · exact ⟨0, by omega, by simp [noiseLoop, h], .inr (by simpa using h)⟩

/-- A run of `n + 1` sub-steps answers what its last one answers, from where the first `n` lead. -/
theorem substeps_eq (c : Config) (p : Params) (sr : ℕ+) (st : Steps) (freq : ℤ) (n : ℕ)
    (k : CircuitState) :
    substeps c p sr st freq n k =
      substep c p sr st freq ((fun k => (substep c p sr st freq k).1)^[n] k) := by
  induction n generalizing k with
  | zero => rfl
  | succ n ih => rw [substeps, ih]; rfl

end Sys2Proof.Machine
end

