-- ==== Sys2Proof/Laws/PerInstr.lean ====
section
/-! SUPPORT. A statement made for every instruction as syntax: the opcode the encoder gives it is one
whose every payload the decoder reads as that same command of the table. -/

namespace Sys2Proof.Laws.OpcodeTable

/-- Whatever the payload, the command's opcode decodes to a command with that opcode. -/
def Statement (i : Instr) : Prop :=
  ∀ (c : Config) (d : Payload c), ∃ j, decode c ⟨i.opcode, d⟩ = .ok j ∧ j.opcode = i.opcode

theorem decode_formatP {c : Config} {op : Opcode} {d : Payload c} {j : Instr}
    (hp : op.extractLsb' 5 3 = 0b001#3) (h : decodeSetp c (op.extractLsb' 0 5) d = .ok j) :
    decode c ⟨op, d⟩ = .ok j := by
  rw [decode, if_pos hp, h]

theorem decode_formatZN {c : Config} {op : Opcode} {d : Payload c} {j : Instr}
    (hp : op.extractLsb' 5 3 ≠ 0b001#3) (h : decodeControl c op d = .ok j) :
    decode c ⟨op, d⟩ = .ok j := by
  rw [decode, if_neg hp, h]

theorem nop : Statement .nop := fun _ _ => ⟨.nop, decode_formatZN (op := 0x00#8) (by decide) rfl, rfl⟩
theorem init : Statement .init := fun _ _ => ⟨.init, decode_formatZN (op := 0x01#8) (by decide) rfl, rfl⟩
theorem trig : Statement .trig := fun _ _ => ⟨.trig, decode_formatZN (op := 0x02#8) (by decide) rfl, rfl⟩
theorem setsr (x : ℕ) : Statement (.setsr x) :=
  fun c d => ⟨.setsr (c.decN d), decode_formatZN (op := 0x03#8) (by decide) rfl, rfl⟩
theorem update (x : ℕ) : Statement (.update x) :=
  fun c d => ⟨.update (c.decN d), decode_formatZN (op := 0x04#8) (by decide) rfl, rfl⟩
theorem setpOsRes (x : Component) : Statement (.setpOsRes x) :=
  fun c d => ⟨.setpOsRes (c.decU d), decode_formatP (op := 0x20#8) (by decide) rfl, rfl⟩
theorem setpOsCap (x : Component) : Statement (.setpOsCap x) :=
  fun c d => ⟨.setpOsCap (c.decU d), decode_formatP (op := 0x21#8) (by decide) rfl, rfl⟩
theorem setpSlfRes (x : Component) : Statement (.setpSlfRes x) :=
  fun c d => ⟨.setpSlfRes (c.decU d), decode_formatP (op := 0x22#8) (by decide) rfl, rfl⟩
theorem setpSlfCap (x : Component) : Statement (.setpSlfCap x) :=
  fun c d => ⟨.setpSlfCap (c.decU d), decode_formatP (op := 0x23#8) (by decide) rfl, rfl⟩
theorem setpVcoRes (x : Component) : Statement (.setpVcoRes x) :=
  fun c d => ⟨.setpVcoRes (c.decU d), decode_formatP (op := 0x24#8) (by decide) rfl, rfl⟩
theorem setpVcoCap (x : Component) : Statement (.setpVcoCap x) :=
  fun c d => ⟨.setpVcoCap (c.decU d), decode_formatP (op := 0x25#8) (by decide) rfl, rfl⟩
theorem setpVcoVoltage (x : Voltage) : Statement (.setpVcoVoltage x) :=
  fun c d => ⟨.setpVcoVoltage (c.decS d), decode_formatP (op := 0x26#8) (by decide) rfl, rfl⟩
theorem setpPitchVoltage (x : Voltage) : Statement (.setpPitchVoltage x) :=
  fun c d => ⟨.setpPitchVoltage (c.decS d), decode_formatP (op := 0x27#8) (by decide) rfl, rfl⟩
theorem setpNoiseClockRes (x : Component) : Statement (.setpNoiseClockRes x) :=
  fun c d => ⟨.setpNoiseClockRes (c.decU d), decode_formatP (op := 0x28#8) (by decide) rfl, rfl⟩
theorem setpNoiseFilterRes (x : Component) : Statement (.setpNoiseFilterRes x) :=
  fun c d => ⟨.setpNoiseFilterRes (c.decU d), decode_formatP (op := 0x29#8) (by decide) rfl, rfl⟩
theorem setpNoiseFilterCap (x : Component) : Statement (.setpNoiseFilterCap x) :=
  fun c d => ⟨.setpNoiseFilterCap (c.decU d), decode_formatP (op := 0x2A#8) (by decide) rfl, rfl⟩
theorem setpAttackRes (x : Component) : Statement (.setpAttackRes x) :=
  fun c d => ⟨.setpAttackRes (c.decU d), decode_formatP (op := 0x2B#8) (by decide) rfl, rfl⟩
theorem setpDecayRes (x : Component) : Statement (.setpDecayRes x) :=
  fun c d => ⟨.setpDecayRes (c.decU d), decode_formatP (op := 0x2C#8) (by decide) rfl, rfl⟩
theorem setpAdCap (x : Component) : Statement (.setpAdCap x) :=
  fun c d => ⟨.setpAdCap (c.decU d), decode_formatP (op := 0x2D#8) (by decide) rfl, rfl⟩
theorem setpMixer (x : BitVec 3) : Statement (.setpMixer x) :=
  fun c d => ⟨.setpMixer (c.decB3 d), decode_formatP (op := 0x2E#8) (by decide) rfl, rfl⟩
theorem setpEnvMode (x : EnvMode) : Statement (.setpEnvMode x) :=
  fun c d => ⟨.setpEnvMode (EnvMode.ofBits (c.decB2 d)), decode_formatP (op := 0x2F#8) (by decide) rfl, rfl⟩
theorem setpVcoMode (x : VcoMode) : Statement (.setpVcoMode x) :=
  fun c d => ⟨.setpVcoMode (VcoMode.ofBit (c.decB1 d)), decode_formatP (op := 0x30#8) (by decide) rfl, rfl⟩
theorem setpEnableN (x : Bool) : Statement (.setpEnableN x) :=
  fun c d => ⟨.setpEnableN (c.decB1 d), decode_formatP (op := 0x31#8) (by decide) rfl, rfl⟩
theorem setpOsExtV (x : Voltage) : Statement (.setpOsExtV x) :=
  fun c d => ⟨.setpOsExtV (c.decS d), decode_formatP (op := 0x32#8) (by decide) rfl, rfl⟩
theorem setpSlfExtV (x : Voltage) : Statement (.setpSlfExtV x) :=
  fun c d => ⟨.setpSlfExtV (c.decS d), decode_formatP (op := 0x33#8) (by decide) rfl, rfl⟩
theorem setpVcoExtV (x : Voltage) : Statement (.setpVcoExtV x) :=
  fun c d => ⟨.setpVcoExtV (c.decS d), decode_formatP (op := 0x34#8) (by decide) rfl, rfl⟩
theorem setpExtEn (x : BitVec 3) : Statement (.setpExtEn x) :=
  fun c d => ⟨.setpExtEn (c.decB3 d), decode_formatP (op := 0x35#8) (by decide) rfl, rfl⟩

end Sys2Proof.Laws.OpcodeTable
end

