-- ==== Sys2Proof/Laws/Stages.lean ====
section
/-! SUPPORT. What each stage writes and leaves: one lemma per CircuitState field per stage, true by
`rfl`. A stage writes the fields 45_update_scheduler.md rule R223 gives it and no other. -/

namespace Sys2Proof.Machine

variable (c : Config) (p : Params) (k : CircuitState)

@[simp] theorem oneShotStage_osV (st : Steps) :
    (oneShotStage c p st k).osV = (osMove c p st k).1 := rfl
@[simp] theorem oneShotStage_slfV (st : Steps) :
    (oneShotStage c p st k).slfV = k.slfV := rfl
@[simp] theorem oneShotStage_vcoV (st : Steps) :
    (oneShotStage c p st k).vcoV = k.vcoV := rfl
@[simp] theorem oneShotStage_nfV (st : Steps) :
    (oneShotStage c p st k).nfV = k.nfV := rfl
@[simp] theorem oneShotStage_adV (st : Steps) :
    (oneShotStage c p st k).adV = k.adV := rfl
@[simp] theorem oneShotStage_osRun (st : Steps) :
    (oneShotStage c p st k).osRun = osRunNext c (osMove c p st k).2 k.osRun := rfl
@[simp] theorem oneShotStage_slfFf (st : Steps) :
    (oneShotStage c p st k).slfFf = k.slfFf := rfl
@[simp] theorem oneShotStage_vcoFf (st : Steps) :
    (oneShotStage c p st k).vcoFf = k.vcoFf := rfl
@[simp] theorem oneShotStage_vcoAlt (st : Steps) :
    (oneShotStage c p st k).vcoAlt = k.vcoAlt := rfl
@[simp] theorem oneShotStage_fnoiseFf (st : Steps) :
    (oneShotStage c p st k).fnoiseFf = k.fnoiseFf := rfl
@[simp] theorem oneShotStage_rng (st : Steps) :
    (oneShotStage c p st k).rng = k.rng := rfl
@[simp] theorem oneShotStage_ncnt (st : Steps) :
    (oneShotStage c p st k).ncnt = k.ncnt := rfl

@[simp] theorem slfStage_osV (st : Steps) :
    (slfStage c p st k).osV = k.osV := rfl
@[simp] theorem slfStage_slfV (st : Steps) :
    (slfStage c p st k).slfV = (slfMove c p st k).1 := rfl
@[simp] theorem slfStage_vcoV (st : Steps) :
    (slfStage c p st k).vcoV = k.vcoV := rfl
@[simp] theorem slfStage_nfV (st : Steps) :
    (slfStage c p st k).nfV = k.nfV := rfl
@[simp] theorem slfStage_adV (st : Steps) :
    (slfStage c p st k).adV = k.adV := rfl
@[simp] theorem slfStage_osRun (st : Steps) :
    (slfStage c p st k).osRun = k.osRun := rfl
@[simp] theorem slfStage_slfFf (st : Steps) :
    (slfStage c p st k).slfFf = slfFfNext c (slfMove c p st k).2 k.slfFf := rfl
@[simp] theorem slfStage_vcoFf (st : Steps) :
    (slfStage c p st k).vcoFf = k.vcoFf := rfl
@[simp] theorem slfStage_vcoAlt (st : Steps) :
    (slfStage c p st k).vcoAlt = k.vcoAlt := rfl
@[simp] theorem slfStage_fnoiseFf (st : Steps) :
    (slfStage c p st k).fnoiseFf = k.fnoiseFf := rfl
@[simp] theorem slfStage_rng (st : Steps) :
    (slfStage c p st k).rng = k.rng := rfl
@[simp] theorem slfStage_ncnt (st : Steps) :
    (slfStage c p st k).ncnt = k.ncnt := rfl

@[simp] theorem vcoStage_osV (st : Steps) (ceiling : Voltage) :
    (vcoStage c p st ceiling k).osV = k.osV := rfl
@[simp] theorem vcoStage_slfV (st : Steps) (ceiling : Voltage) :
    (vcoStage c p st ceiling k).slfV = k.slfV := rfl
@[simp] theorem vcoStage_vcoV (st : Steps) (ceiling : Voltage) :
    (vcoStage c p st ceiling k).vcoV = (vcoMove c p st ceiling k).1 := rfl
@[simp] theorem vcoStage_nfV (st : Steps) (ceiling : Voltage) :
    (vcoStage c p st ceiling k).nfV = k.nfV := rfl
@[simp] theorem vcoStage_adV (st : Steps) (ceiling : Voltage) :
    (vcoStage c p st ceiling k).adV = k.adV := rfl
@[simp] theorem vcoStage_osRun (st : Steps) (ceiling : Voltage) :
    (vcoStage c p st ceiling k).osRun = k.osRun := rfl
@[simp] theorem vcoStage_slfFf (st : Steps) (ceiling : Voltage) :
    (vcoStage c p st ceiling k).slfFf = k.slfFf := rfl
@[simp] theorem vcoStage_vcoFf (st : Steps) (ceiling : Voltage) :
    (vcoStage c p st ceiling k).vcoFf = vcoFfNext c ceiling (vcoMove c p st ceiling k).2 k.vcoFf := rfl
@[simp] theorem vcoStage_vcoAlt (st : Steps) (ceiling : Voltage) :
    (vcoStage c p st ceiling k).vcoAlt = vcoAltNext ceiling (vcoMove c p st ceiling k).2 k.vcoFf k.vcoAlt := rfl
@[simp] theorem vcoStage_fnoiseFf (st : Steps) (ceiling : Voltage) :
    (vcoStage c p st ceiling k).fnoiseFf = k.fnoiseFf := rfl
@[simp] theorem vcoStage_rng (st : Steps) (ceiling : Voltage) :
    (vcoStage c p st ceiling k).rng = k.rng := rfl
@[simp] theorem vcoStage_ncnt (st : Steps) (ceiling : Voltage) :
    (vcoStage c p st ceiling k).ncnt = k.ncnt := rfl

@[simp] theorem noiseStage_osV (freq : ℤ) (sr : ℕ+) (st : Steps) :
    (noiseStage c freq sr st k).osV = k.osV := rfl
@[simp] theorem noiseStage_slfV (freq : ℤ) (sr : ℕ+) (st : Steps) :
    (noiseStage c freq sr st k).slfV = k.slfV := rfl
@[simp] theorem noiseStage_vcoV (freq : ℤ) (sr : ℕ+) (st : Steps) :
    (noiseStage c freq sr st k).vcoV = k.vcoV := rfl
@[simp] theorem noiseStage_nfV (freq : ℤ) (sr : ℕ+) (st : Steps) :
    (noiseStage c freq sr st k).nfV = moveCapacitor c.nf (rawBit (noiseCount c freq sr k.ncnt k.rng).2) k.nfV st.nfChg
        st.nfDis := rfl
@[simp] theorem noiseStage_adV (freq : ℤ) (sr : ℕ+) (st : Steps) :
    (noiseStage c freq sr st k).adV = k.adV := rfl
@[simp] theorem noiseStage_osRun (freq : ℤ) (sr : ℕ+) (st : Steps) :
    (noiseStage c freq sr st k).osRun = k.osRun := rfl
@[simp] theorem noiseStage_slfFf (freq : ℤ) (sr : ℕ+) (st : Steps) :
    (noiseStage c freq sr st k).slfFf = k.slfFf := rfl
@[simp] theorem noiseStage_vcoFf (freq : ℤ) (sr : ℕ+) (st : Steps) :
    (noiseStage c freq sr st k).vcoFf = k.vcoFf := rfl
@[simp] theorem noiseStage_vcoAlt (freq : ℤ) (sr : ℕ+) (st : Steps) :
    (noiseStage c freq sr st k).vcoAlt = k.vcoAlt := rfl
@[simp] theorem noiseStage_fnoiseFf (freq : ℤ) (sr : ℕ+) (st : Steps) :
    (noiseStage c freq sr st k).fnoiseFf = fnoiseFfNext c (noiseStage c freq sr st k).nfV k.fnoiseFf := rfl
@[simp] theorem noiseStage_rng (freq : ℤ) (sr : ℕ+) (st : Steps) :
    (noiseStage c freq sr st k).rng = (noiseCount c freq sr k.ncnt k.rng).2 := rfl
@[simp] theorem noiseStage_ncnt (freq : ℤ) (sr : ℕ+) (st : Steps) :
    (noiseStage c freq sr st k).ncnt = (noiseCount c freq sr k.ncnt k.rng).1 := rfl

@[simp] theorem envelopeStage_osV (st : Steps) :
    (envelopeStage c p st k).osV = k.osV := rfl
@[simp] theorem envelopeStage_slfV (st : Steps) :
    (envelopeStage c p st k).slfV = k.slfV := rfl
@[simp] theorem envelopeStage_vcoV (st : Steps) :
    (envelopeStage c p st k).vcoV = k.vcoV := rfl
@[simp] theorem envelopeStage_nfV (st : Steps) :
    (envelopeStage c p st k).nfV = k.nfV := rfl
@[simp] theorem envelopeStage_adV (st : Steps) :
    (envelopeStage c p st k).adV = envMove c (envCharging p.envMode k.vcoFf k.osRun k.vcoAlt) k.adV st.adChg st.adDis := rfl
@[simp] theorem envelopeStage_osRun (st : Steps) :
    (envelopeStage c p st k).osRun = k.osRun := rfl
@[simp] theorem envelopeStage_slfFf (st : Steps) :
    (envelopeStage c p st k).slfFf = k.slfFf := rfl
@[simp] theorem envelopeStage_vcoFf (st : Steps) :
    (envelopeStage c p st k).vcoFf = k.vcoFf := rfl
@[simp] theorem envelopeStage_vcoAlt (st : Steps) :
    (envelopeStage c p st k).vcoAlt = k.vcoAlt := rfl
@[simp] theorem envelopeStage_fnoiseFf (st : Steps) :
    (envelopeStage c p st k).fnoiseFf = k.fnoiseFf := rfl
@[simp] theorem envelopeStage_rng (st : Steps) :
    (envelopeStage c p st k).rng = k.rng := rfl
@[simp] theorem envelopeStage_ncnt (st : Steps) :
    (envelopeStage c p st k).ncnt = k.ncnt := rfl

end Sys2Proof.Machine
end

