-- ==== Sys2Proof/Laws/State.lean ====
section
/-! SUPPORT. One lemma per field per update of `State`, each true by `rfl`: no later proof unfolds a
record update. -/

namespace Sys2Proof.Machine

variable (s : State)

@[simp] theorem State.setParams_params (p : Params) :
    (s.setParams p).params = p := rfl
@[simp] theorem State.setParams_sampleRate (p : Params) :
    (s.setParams p).sampleRate = s.sampleRate := rfl
@[simp] theorem State.setParams_circuit (p : Params) :
    (s.setParams p).circuit = s.circuit := rfl
@[simp] theorem State.setParams_rsp (p : Params) :
    (s.setParams p).rsp = s.rsp := rfl
@[simp] theorem State.setParams_inputs (p : Params) :
    (s.setParams p).inputs = s.inputs := rfl

@[simp] theorem State.setSampleRate_params (n : ℕ+) :
    (s.setSampleRate n).params = s.params := rfl
@[simp] theorem State.setSampleRate_sampleRate (n : ℕ+) :
    (s.setSampleRate n).sampleRate = n := rfl
@[simp] theorem State.setSampleRate_circuit (n : ℕ+) :
    (s.setSampleRate n).circuit = s.circuit := rfl
@[simp] theorem State.setSampleRate_rsp (n : ℕ+) :
    (s.setSampleRate n).rsp = s.rsp := rfl
@[simp] theorem State.setSampleRate_inputs (n : ℕ+) :
    (s.setSampleRate n).inputs = s.inputs := rfl

@[simp] theorem State.setCircuit_params (k : CircuitState) :
    (s.setCircuit k).params = s.params := rfl
@[simp] theorem State.setCircuit_sampleRate (k : CircuitState) :
    (s.setCircuit k).sampleRate = s.sampleRate := rfl
@[simp] theorem State.setCircuit_circuit (k : CircuitState) :
    (s.setCircuit k).circuit = k := rfl
@[simp] theorem State.setCircuit_rsp (k : CircuitState) :
    (s.setCircuit k).rsp = s.rsp := rfl
@[simp] theorem State.setCircuit_inputs (k : CircuitState) :
    (s.setCircuit k).inputs = s.inputs := rfl

@[simp] theorem State.respond_params (x : ℤ) (a : Voltage) :
    (s.respond x a).params = s.params := rfl
@[simp] theorem State.respond_sampleRate (x : ℤ) (a : Voltage) :
    (s.respond x a).sampleRate = s.sampleRate := rfl
@[simp] theorem State.respond_circuit (x : ℤ) (a : Voltage) :
    (s.respond x a).circuit = s.circuit := rfl
@[simp] theorem State.respond_rsp (x : ℤ) (a : Voltage) :
    (s.respond x a).rsp = ⟨true, x, a⟩ := rfl
@[simp] theorem State.respond_inputs (x : ℤ) (a : Voltage) :
    (s.respond x a).inputs = s.inputs := rfl

@[simp] theorem State.accept_params (rest : List PortInput) :
    (s.accept rest).params = s.params := rfl
@[simp] theorem State.accept_sampleRate (rest : List PortInput) :
    (s.accept rest).sampleRate = s.sampleRate := rfl
@[simp] theorem State.accept_circuit (rest : List PortInput) :
    (s.accept rest).circuit = s.circuit := rfl
@[simp] theorem State.accept_rsp (rest : List PortInput) :
    (s.accept rest).rsp = { s.rsp with valid := false } := rfl
@[simp] theorem State.accept_inputs (rest : List PortInput) :
    (s.accept rest).inputs = rest := rfl

@[simp] theorem State.idle_params :
    s.idle.params = s.params := rfl
@[simp] theorem State.idle_sampleRate :
    s.idle.sampleRate = s.sampleRate := rfl
@[simp] theorem State.idle_circuit :
    s.idle.circuit = s.circuit := rfl
@[simp] theorem State.idle_rsp :
    s.idle.rsp = { s.rsp with valid := false } := rfl
@[simp] theorem State.idle_inputs :
    s.idle.inputs = [] := rfl

@[simp] theorem State.present_params (w : Command Config.cfg) :
    (s.present w).params = s.params := rfl
@[simp] theorem State.present_sampleRate (w : Command Config.cfg) :
    (s.present w).sampleRate = s.sampleRate := rfl
@[simp] theorem State.present_circuit (w : Command Config.cfg) :
    (s.present w).circuit = s.circuit := rfl
@[simp] theorem State.present_rsp (w : Command Config.cfg) :
    (s.present w).rsp = s.rsp := rfl
@[simp] theorem State.present_inputs (w : Command Config.cfg) :
    (s.present w).inputs = .command w :: s.inputs := rfl

@[simp] theorem State.initialised_params (c : Config) :
    (s.initialised c).params = { s.params with vcoMode := .internal } := rfl
@[simp] theorem State.initialised_sampleRate (c : Config) :
    (s.initialised c).sampleRate = s.sampleRate := rfl
@[simp] theorem State.initialised_circuit (c : Config) :
    (s.initialised c).circuit = CircuitState.reset c := rfl
@[simp] theorem State.initialised_rsp (c : Config) :
    (s.initialised c).rsp = s.rsp := rfl
@[simp] theorem State.initialised_inputs (c : Config) :
    (s.initialised c).inputs = s.inputs := rfl

@[simp] theorem State.updated_params (c : Config) :
    (s.updated c).params = s.params := rfl
@[simp] theorem State.updated_sampleRate (c : Config) :
    (s.updated c).sampleRate = s.sampleRate := rfl
@[simp] theorem State.updated_circuit (c : Config) :
    (s.updated c).circuit = (runUpdate c s.params s.sampleRate s.circuit).1 := rfl
@[simp] theorem State.updated_rsp (c : Config) :
    (s.updated c).rsp = ⟨true, (runUpdate c s.params s.sampleRate s.circuit).2.1, (runUpdate c s.params s.sampleRate s.circuit).2.2⟩ := rfl
@[simp] theorem State.updated_inputs (c : Config) :
    (s.updated c).inputs = s.inputs := rfl

@[simp] theorem State.withFetchWord_params (nbits w : ℕ) :
    (s.withFetchWord nbits w).params = s.params := rfl
@[simp] theorem State.withFetchWord_sampleRate (nbits w : ℕ) :
    (s.withFetchWord nbits w).sampleRate = s.sampleRate := rfl
@[simp] theorem State.withFetchWord_circuit (nbits w : ℕ) :
    (s.withFetchWord nbits w).circuit = s.circuit := rfl
@[simp] theorem State.withFetchWord_rsp (nbits w : ℕ) :
    (s.withFetchWord nbits w).rsp = s.rsp := rfl
@[simp] theorem State.withFetchWord_inputs (nbits w : ℕ) :
    (s.withFetchWord nbits w).inputs = .command (commandOfWord Config.cfg nbits w) :: s.inputs := rfl

/-! ### Reset -/

@[simp] theorem State.reset_params : State.reset.params = Params.reset := rfl
@[simp] theorem State.reset_sampleRate :
    State.reset.sampleRate = Config.cfg.sampleRateReset := rfl
@[simp] theorem State.reset_circuit : State.reset.circuit = CircuitState.reset Config.cfg := rfl
@[simp] theorem State.reset_rsp : State.reset.rsp = Response.reset := rfl
@[simp] theorem State.reset_inputs : State.reset.inputs = [] := rfl
@[simp] theorem State.powerOnReset_params (rest : List PortInput) :
    (State.powerOnReset rest).params = Params.reset := rfl
@[simp] theorem State.powerOnReset_sampleRate (rest : List PortInput) :
    (State.powerOnReset rest).sampleRate = Config.cfg.sampleRateReset := rfl
@[simp] theorem State.powerOnReset_circuit (rest : List PortInput) :
    (State.powerOnReset rest).circuit = CircuitState.reset Config.cfg := rfl
@[simp] theorem State.powerOnReset_rsp (rest : List PortInput) :
    (State.powerOnReset rest).rsp = Response.reset := rfl
@[simp] theorem State.powerOnReset_inputs (rest : List PortInput) :
    (State.powerOnReset rest).inputs = rest := rfl

end Sys2Proof.Machine
end

