-- ==== Sys2Proof/Machine/Parser.lean ====
section
/-! DEFINITION. Reading the spec's assembler notation (30_encoding.md rules R95, R96): one command per
line, the mnemonic in lower case, operands separated by commas, `;` starting a comment. -/

namespace Sys2Proof.Machine

/-- A space or a tab. -/
def isBlank (c : Char) : Bool := c = ' ' || c = '\t'

/-- The text without the blanks around it. -/
def trimBlanks (cs : List Char) : List Char :=
  ((cs.dropWhile isBlank).reverse.dropWhile isBlank).reverse

/-- The pieces of a text between the separators, at least one. -/
def pieces (sep : Char) : List Char → List (List Char)
  | [] => [[]]
  | c :: cs =>
    if c = sep then [] :: pieces sep cs
    else
      match pieces sep cs with
      | [] => [[c]]
      | w :: ws => (c :: w) :: ws

/-- A numeral in a base up to 10. -/
def readNumeral (base : ℕ) (cs : List Char) : Option ℕ :=
  if cs.isEmpty then none
  else cs.foldl (fun acc c => acc.bind fun n =>
    if c.isDigit && decide (c.toNat - 48 < base) then some (n * base + (c.toNat - 48)) else none)
    (some 0)

/-- `47000`, `0.33` or `22/5`, without a sign. -/
def readUnsigned (cs : List Char) : Option ℚ :=
  match pieces '/' cs with
  | [a] =>
    match pieces '.' a with
    | [i] => (readNumeral 10 i).map fun n => (n : ℚ)
    | [i, f] => (readNumeral 10 i).bind fun n => (readNumeral 10 f).map fun m =>
        (n : ℚ) + (m : ℚ) / 10 ^ f.length
    | _ => none
  | [a, b] => (readNumeral 10 a).bind fun n => (readNumeral 10 b).bind fun d =>
      if d = 0 then none else some ((n : ℚ) / d)
  | _ => none

/-- A class S value: a decimal or a fraction, with a sign if it is negative. -/
def readSigned : List Char → Option ℚ
  | '-' :: cs => (readUnsigned cs).map fun q => -q
  | cs => readUnsigned cs

/-- A class U value: a decimal or a fraction >= 0. -/
def readComponent (cs : List Char) : Option Component :=
  (readSigned cs).bind fun q => if h : 0 ≤ q then some ⟨q, h⟩ else none

/-- A class B value: a decimal integer or a binary literal that fits the slot's `w` bits. -/
def readBits (w : ℕ) (cs : List Char) : Option (BitVec w) :=
  let n? := match cs with
    | '0' :: 'b' :: bs => readNumeral 2 bs
    | _ => readNumeral 10 cs
  n?.bind fun n => if n < 2 ^ w then some (BitVec.ofNat w n) else none

/-- An envelope mode, by name or number. -/
def readEnvMode (cs : List Char) : Option EnvMode :=
  if cs = "VCO".toList then some .vco
  else if cs = "ONE_SHOT".toList then some .oneShot
  else if cs = "MIXER_ONLY".toList then some .mixerOnly
  else if cs = "VCO_ALT_POLARITY".toList then some .vcoAltPolarity
  else (readBits 2 cs).map EnvMode.ofBits

/-- A VCO mode, by name or number. -/
def readVcoMode (cs : List Char) : Option VcoMode :=
  if cs = "INTERNAL".toList then some .internal
  else if cs = "EXTERNAL".toList then some .external
  else (readBits 1 cs).map fun b => VcoMode.ofBit (b.getLsbD 0)

/-- The slots in the order of their numbers. -/
def allSlots : List Slot :=
  [.osRes, .osCap, .slfRes, .slfCap, .vcoRes, .vcoCap, .vcoVoltage, .pitchVoltage, .noiseClockRes,
   .noiseFilterRes, .noiseFilterCap, .attackRes, .decayRes, .adCap, .mixer, .envMode, .vcoMode,
   .enableN, .osExtV, .slfExtV, .vcoExtV, .extEn]

/-- The slot of a name. -/
def readSlot (cs : List Char) : Option Slot := allSlots.find? fun s => (slotName s).toList = cs

/-- `setp <SLOT>, <value>`: the value is read as the slot's class asks. -/
def readSetp (slot : Slot) (v : List Char) : Option Instr :=
  match slot with
  | .osRes => (readComponent v).map .setpOsRes
  | .osCap => (readComponent v).map .setpOsCap
  | .slfRes => (readComponent v).map .setpSlfRes
  | .slfCap => (readComponent v).map .setpSlfCap
  | .vcoRes => (readComponent v).map .setpVcoRes
  | .vcoCap => (readComponent v).map .setpVcoCap
  | .vcoVoltage => (readSigned v).map .setpVcoVoltage
  | .pitchVoltage => (readSigned v).map .setpPitchVoltage
  | .noiseClockRes => (readComponent v).map .setpNoiseClockRes
  | .noiseFilterRes => (readComponent v).map .setpNoiseFilterRes
  | .noiseFilterCap => (readComponent v).map .setpNoiseFilterCap
  | .attackRes => (readComponent v).map .setpAttackRes
  | .decayRes => (readComponent v).map .setpDecayRes
  | .adCap => (readComponent v).map .setpAdCap
  | .mixer => (readBits 3 v).map .setpMixer
  | .envMode => (readEnvMode v).map .setpEnvMode
  | .vcoMode => (readVcoMode v).map .setpVcoMode
  | .enableN => (readBits 1 v).map fun b => .setpEnableN (b.getLsbD 0)
  | .osExtV => (readSigned v).map .setpOsExtV
  | .slfExtV => (readSigned v).map .setpSlfExtV
  | .vcoExtV => (readSigned v).map .setpVcoExtV
  | .extEn => (readBits 3 v).map .setpExtEn

/-- A 0 or a 1. -/
def readBit (cs : List Char) : Option Bool := (readBits 1 cs).map fun b => b.getLsbD 0

/-- A command, or a pseudo-instruction as its expansion (rule R96), from its mnemonic and operands. -/
def readCommand (m : List Char) (ops : List (List Char)) : Option (List Instr) :=
  match ops with
  | [] =>
    if m = "nop".toList then some [.nop]
    else if m = "init".toList then some [.init]
    else if m = "trig".toList then some [.trig]
    else if m = "update".toList then some (expandPseudo .update)
    else if m = "enable".toList then some (expandPseudo .enable)
    else if m = "disable".toList then some (expandPseudo .disable)
    else none
  | [a] =>
    if m = "setsr".toList then (readNumeral 10 a).map fun n => [.setsr n]
    else if m = "update".toList then (readNumeral 10 a).map fun n => [.update n]
    else none
  | [a, b] =>
    if m = "setp".toList then (readSlot a).bind fun s => (readSetp s b).map fun i => [i]
    else (readComponent a).bind fun r => (readComponent b).bind fun c =>
      if m = "setos".toList then some (expandPseudo (.setos r c))
      else if m = "setslf".toList then some (expandPseudo (.setslf r c))
      else if m = "setvco".toList then some (expandPseudo (.setvco r c))
      else if m = "setnf".toList then some (expandPseudo (.setnf r c))
      else none
  | [a, b, c] =>
    if m = "setad".toList then
      (readComponent a).bind fun x => (readComponent b).bind fun y => (readComponent c).map fun z =>
        expandPseudo (.setad x y z)
    else if m = "setmix".toList then
      (readBit a).bind fun x => (readBit b).bind fun y => (readBit c).map fun z =>
        expandPseudo (.setmix x y z)
    else none
  | _ => none

/-- One line of the notation: the commands it stands for, none of them for a blank line or a comment;
`none` if it is no line of the notation. -/
def readLine (line : String) : Option (List Instr) :=
  let text := trimBlanks (line.toList.takeWhile fun c => c ≠ ';')
  let operands := trimBlanks (text.dropWhile fun c => !isBlank c)
  if text.isEmpty then some []
  else readCommand (text.takeWhile fun c => !isBlank c)
    (if operands.isEmpty then [] else (pieces ',' operands).map trimBlanks)

end Sys2Proof.Machine
end

