-- ==== Sys2Proof/Tests/Slice0.lean ====
section
/-! SUPPORT. Tests on the configuration TC0 of 95_test_vectors.md section 2, each against a vector of
that file or a value worked out by hand from a rule; the smoke test of WellFormed; and, for every
statement with hypotheses, a `witness_` theorem that meets them. -/

namespace Sys2Proof.Tests

open Sys2Proof.Machine

set_option Elab.async false

/-! ### TC0 -/

/-- A component. -/
def u (q : ℚ) : Component := ⟨max q 0, le_max_right q 0⟩

/-- TC0's fitted functions: the stage's range over `R * C`. -/
def fit (range : ℚ) (r k : Component) : Component := u (range / (r.val * k.val))

/-- TC0, with a payload codec of 8 bits in quarters (TC0 itself names none) and an `N_SUB` and a
`NOISE_COUNT_MAX` that vary. -/
def tcWith (nSub noiseCountMax : ℕ+) : Config where
  nSub := nSub
  os := ⟨0, u (5 / 2)⟩
  slf := ⟨1 / 2, u 2⟩
  vco := ⟨1 / 2, u (5 / 2)⟩
  nf := ⟨0, u 5⟩
  ad := ⟨0, u (22 / 5)⟩
  vcoOffset := 1 / 2
  nfThLow := 1
  nfThGap := ⟨1, 0⟩
  fOsChg := fit (5 / 2)
  fOsDis := fit (5 / 2)
  fSlfChg := fit 2
  fSlfDis := fit 2
  fVcoChg := fit (5 / 2)
  fVcoDis := fit (5 / 2)
  fNfChg := fit 5
  fNfDis := fit 5
  fAdChg := fit (22 / 5)
  fAdDis := fit (22 / 5)
  fNoise := fun r => u (1000 / r.val)
  noiseRMinPos := ⟨9, 0⟩
  noiseRSpan := u 990
  noiseCountMax := noiseCountMax
  outClipLow := 1 / 2
  outCenterGap := ⟨1, 0⟩
  outClipHighSpan := u 1
  peakGain := 1
  posGain := ⟨((List.range 45).map fun i => (i : ℚ) / 40).toArray, by simp⟩
  negGain := ⟨((List.range 45).map fun i => -(i : ℚ) / 20).toArray, by simp⟩
  fullScale := 1000
  sampleRateReset := 10
  codec := ⟨5, fun n => u (n / 4), fun n => if n < 128 then n / 4 else ((n : ℚ) - 256) / 4,
    fun _ => 0⟩
  sampleExtraWidth := 0

/-- TC0. -/
def tc0 : Config := tcWith 1 1000000000

/-- The CircuitState after reset. -/
def k0 : CircuitState := CircuitState.reset tc0

/-- The Parameter Store after reset. -/
def p0 : Params := Params.reset

/-- One sub-step at SAMPLE_RATE 10. -/
def run1 (p : Params) (k : CircuitState) : CircuitState × ℤ × Voltage :=
  substep tc0 p 10 (computeSteps tc0 p 10) (noiseFreq tc0 p) k

/-- `n` sub-steps at SAMPLE_RATE 10. -/
def runs (p : Params) (n : ℕ) (k : CircuitState) : CircuitState := (nextCircuit tc0 p 10)^[n] k

/-- A command of TC0 by its opcode and payload. -/
def cmd (op data : ℕ) : Command tc0 := ⟨BitVec.ofNat 8 op, BitVec.ofNat _ data⟩

/-- Decoding a command gives an instruction, and encoding that gives the command. -/
def Codes (w : Command tc0) (i : Instr) : Prop := decode tc0 w = .ok i ∧ encode tc0 i = w

/-- The state after a command. -/
def after (o : Host.Outcome State Fault Refusal) : Option State :=
  match o with
  | .next t => some t
  | .fault _ | .refused _ => none

/-! ### Decoding and encoding: the word of each command, from 30_encoding.md section 2 -/

theorem test_code_nop : Codes (cmd 0b00000000 0) .nop := by unfold Codes; decide +kernel
theorem test_code_init : Codes (cmd 0b00000001 0) .init := by unfold Codes; decide +kernel
theorem test_code_trig : Codes (cmd 0b00000010 0) .trig := by unfold Codes; decide +kernel
theorem test_code_setsr : Codes (cmd 0b00000011 0b11111111) (.setsr 255) := by
  unfold Codes; decide +kernel
theorem test_code_update : Codes (cmd 0b00000100 0b01000000) (.update 64) := by
  unfold Codes; decide +kernel
theorem test_code_osRes : Codes (cmd 0b00100000 0b00000100) (.setpOsRes (u 1)) := by
  unfold Codes; decide +kernel
theorem test_code_osCap : Codes (cmd 0b00100001 0) (.setpOsCap (u 0)) := by
  unfold Codes; decide +kernel
theorem test_code_slfRes : Codes (cmd 0b00100010 0b00000001) (.setpSlfRes (u (1 / 4))) := by
  unfold Codes; decide +kernel
theorem test_code_slfCap : Codes (cmd 0b00100011 0b00000010) (.setpSlfCap (u (1 / 2))) := by
  unfold Codes; decide +kernel
theorem test_code_vcoRes : Codes (cmd 0b00100100 0b11111111) (.setpVcoRes (u (255 / 4))) := by
  unfold Codes; decide +kernel
theorem test_code_vcoCap : Codes (cmd 0b00100101 0b00000100) (.setpVcoCap (u 1)) := by
  unfold Codes; decide +kernel
theorem test_code_vcoVoltage : Codes (cmd 0b00100110 0b11111111) (.setpVcoVoltage (-1 / 4)) := by
  unfold Codes; decide +kernel
theorem test_code_pitch : Codes (cmd 0b00100111 0b01111111) (.setpPitchVoltage (127 / 4)) := by
  unfold Codes; decide +kernel
theorem test_code_noiseClockRes : Codes (cmd 0b00101000 40) (.setpNoiseClockRes (u 10)) := by
  unfold Codes; decide +kernel
theorem test_code_noiseFilterRes : Codes (cmd 0b00101001 4) (.setpNoiseFilterRes (u 1)) := by
  unfold Codes; decide +kernel
theorem test_code_noiseFilterCap : Codes (cmd 0b00101010 8) (.setpNoiseFilterCap (u 2)) := by
  unfold Codes; decide +kernel
theorem test_code_attackRes : Codes (cmd 0b00101011 4) (.setpAttackRes (u 1)) := by
  unfold Codes; decide +kernel
theorem test_code_decayRes : Codes (cmd 0b00101100 8) (.setpDecayRes (u 2)) := by
  unfold Codes; decide +kernel
theorem test_code_adCap : Codes (cmd 0b00101101 12) (.setpAdCap (u 3)) := by
  unfold Codes; decide +kernel
/-- V9.11 -/
theorem test_code_mixer : Codes (cmd 0b00101110 0b101) (.setpMixer 0b101#3) := by
  unfold Codes; decide +kernel
/-- V9.13 -/
theorem test_code_envMode : Codes (cmd 0b00101111 0b01) (.setpEnvMode .oneShot) := by
  unfold Codes; decide +kernel
/-- V9.15 -/
theorem test_code_vcoMode : Codes (cmd 0b00110000 0b1) (.setpVcoMode .external) := by
  unfold Codes; decide +kernel
/-- V9.16 -/
theorem test_code_enableN : Codes (cmd 0b00110001 0b1) (.setpEnableN true) := by
  unfold Codes; decide +kernel
theorem test_code_osExtV : Codes (cmd 0b00110010 0b10000000) (.setpOsExtV (-32)) := by
  unfold Codes; decide +kernel
theorem test_code_slfExtV : Codes (cmd 0b00110011 10) (.setpSlfExtV (5 / 2)) := by
  unfold Codes; decide +kernel
/-- V9.17 -/
theorem test_code_vcoExtV : Codes (cmd 0b00110100 0b11111010) (.setpVcoExtV (-3 / 2)) := by
  unfold Codes; decide +kernel
/-- V9.18 -/
theorem test_code_extEn : Codes (cmd 0b00110101 0b100) (.setpExtEn 0b100#3) := by
  unfold Codes; decide +kernel

/-- V9.12, V9.14: the low bits of a mode payload. -/
theorem test_mode_payload_low_bits :
    decode tc0 (cmd 0x2E 13) = .ok (.setpMixer 0b101#3) ∧
    decode tc0 (cmd 0x2F 7) = .ok (.setpEnvMode .vcoAltPolarity) ∧
    decode tc0 (cmd 0x30 2) = .ok (.setpVcoMode .internal) ∧
    decode tc0 (cmd 0x31 3) = .ok (.setpEnableN true) := by decide +kernel

/-- A codec of 3 bits in quarters. -/
def tc3 : Config :=
  { tc0 with codec := ⟨0, fun n => u (n / 4), fun n => if n < 4 then n / 4 else ((n : ℚ) - 8) / 4,
      fun _ => 0⟩ }

/-- `enc_s` on a representable value, beyond both ends, and between two words. -/
theorem test_enc_s : (tc3.encS (-1 / 2)).toNat = 6 ∧ (tc3.encS 1000).toNat = 3 ∧
    (tc3.encS (-1000)).toNat = 4 ∧ (tc3.encS (3 / 10)).toNat = 1 := by decide +kernel

/-! ### WellFormed: one ill-formed term for each check -/

theorem test_tc0_wellFormed : tc0.values.wellFormed = true := by decide +kernel
/-- Rule R14, checks (a) to (g). -/
theorem test_illFormed_configurations :
    (∀ v ∈ [{ tc0.values with nSub := 0 }, { tc0.values with osMax := -1 },
      { tc0.values with slfMax := 0 }, { tc0.values with vcoMax := 0 },
      { tc0.values with nfMax := -1 }, { tc0.values with adMax := -1 },
      { tc0.values with nfThHigh := 1 }, { tc0.values with outClipLow := 5 / 2 },
      { tc0.values with outClipHigh := 2 }, { tc0.values with noiseRMin := 0 },
      { tc0.values with noiseRMax := 9 }, { tc0.values with fullScale := 0 },
      { tc0.values with sampleRateReset := 0 }, { tc0.values with noiseCountMax := 0 },
      { tc0.values with posGain := List.replicate 44 0 },
      { tc0.values with negGain := List.replicate 46 0 }], v.wellFormed = false) := by
  decide +kernel
/-- An operand that no payload word of 8 bits stands for. -/
theorem test_illFormed_commands : ∀ i ∈ [.setsr 256, .update 256, .setpOsRes (u (1 / 3)),
    .setpAdCap (u 64), .setpVcoVoltage (1 / 8), .setpVcoExtV 32],
    Instr.wellFormed tc0 i = false := by decide +kernel

/-! ### The first step after reset, from the bits of each command -/

/-- With a payload of zeros: the word of 8 bits is the opcode alone. -/
theorem test_first_step_runs_every_opcode :
    ∀ op ∈ [0x00, 0x01, 0x02, 0x03, 0x04, 0x20, 0x21, 0x22, 0x23, 0x24, 0x25, 0x26, 0x27, 0x28, 0x29,
      0x2A, 0x2B, 0x2C, 0x2D, 0x2E, 0x2F, 0x30, 0x31, 0x32, 0x33, 0x34, 0x35],
    ((decodeTableWord 8 op).map fun i => i.opcode.toNat) = some op := by decide +kernel
theorem test_first_step_trig :
    (after (step (State.reset.withFetchWord 8 0x02))).map (·.circuit.osRun) = some true := by
  decide +kernel
/-- 30_encoding.md rule R87: the payload counts on from bit 8. -/
theorem test_word_mixer : decode tc0 (commandOfWord tc0 11 0x52E) = .ok (.setpMixer 0b101#3) := by
  decide +kernel
theorem test_first_step_reserved_is_refused :
    step (State.reset.withFetchWord 8 0x05) =
      .refused (.reservedEncoding (.reservedOpcode 0x05#8)) ∧
    step (State.reset.withFetchWord 8 0x36) =
      .refused (.reservedEncoding (.reservedSlot 0x16#5)) := ⟨rfl, rfl⟩

/-! ### Control commands and setters (95_test_vectors.md section 9) -/

/-- A state that differs from reset in every part a command can touch. -/
def s1 : State where
  params := { p0 with osRes := u 5, vcoMode := .external, mixer := 0b001#3 }
  sampleRate := 20
  circuit := { k0 with osV := 3 / 4, vcoFf := true, vcoAlt := true, fnoiseFf := true, ncnt := 7 }
  rsp := ⟨false, 12, 1 / 2⟩
  inputs := []

/-- V9.8 -/
theorem test_init : (s1.initialised tc0) =
    { s1 with circuit := k0, params := { s1.params with vcoMode := .internal } } := by decide +kernel
/-- V9.2, V9.3, V9.4: TRIG -/
theorem test_trig : after (exec .trig s1) =
    some { s1 with circuit := { s1.circuit with osRun := true } } := by decide +kernel
/-- V9.5, V9.6, V9.7: SETSR -/
theorem test_setsr : after (exec (.setsr 44100) s1) = some { s1 with sampleRate := 44100 } ∧
    after (exec (.setsr 0) s1) = some s1 ∧
    after (exec (.setsr 1) s1) = some { s1 with sampleRate := 1 } := by decide +kernel
/-- V9.1: NOP; and V9.20, a setter of the value the slot has. -/
theorem test_nop : after (exec .nop s1) = some s1 ∧
    after (exec (.setpOsRes (u 5)) s1) = some s1 := by decide +kernel
/-- Rules R261 to R282: each setter and the value its slot then reads. -/
theorem test_setters_write_their_slot :
    ∀ x ∈ ([(.setpOsRes (u 0), .osRes, .unsigned (u 0)), (.setpOsCap (u 2), .osCap, .unsigned (u 2)),
      (.setpSlfRes (u 3), .slfRes, .unsigned (u 3)), (.setpSlfCap (u 4), .slfCap, .unsigned (u 4)),
      (.setpVcoRes (u 5), .vcoRes, .unsigned (u 5)), (.setpVcoCap (u 6), .vcoCap, .unsigned (u 6)),
      (.setpVcoVoltage (-7), .vcoVoltage, .signed (-7)),
      (.setpPitchVoltage 8, .pitchVoltage, .signed 8),
      (.setpNoiseClockRes (u 9), .noiseClockRes, .unsigned (u 9)),
      (.setpNoiseFilterRes (u 1), .noiseFilterRes, .unsigned (u 1)),
      (.setpNoiseFilterCap (u 2), .noiseFilterCap, .unsigned (u 2)),
      (.setpAttackRes (u 3), .attackRes, .unsigned (u 3)),
      (.setpDecayRes (u 4), .decayRes, .unsigned (u 4)), (.setpAdCap (u 5), .adCap, .unsigned (u 5)),
      (.setpMixer 0b110#3, .mixer, .bits3 0b110#3), (.setpEnvMode .mixerOnly, .envMode, .env .mixerOnly),
      (.setpVcoMode .internal, .vcoMode, .vcoMode .internal), (.setpEnableN true, .enableN, .bit true),
      (.setpOsExtV 1, .osExtV, .signed 1), (.setpSlfExtV 2, .slfExtV, .signed 2),
      (.setpVcoExtV (-3 / 2), .vcoExtV, .signed (-3 / 2)),
      (.setpExtEn 0b100#3, .extEn, .bits3 0b100#3)] : List (Instr × Slot × SlotValue)),
    (after (exec x.1 s1)).map (fun t => (t.params.read x.2.1, t.circuit == s1.circuit)) =
      some (x.2.2, true) := by decide +kernel

/-! ### The Rate Computer (95_test_vectors.md section 3) -/

/-- V3.1, V3.2, V3.3, V3.4, V3.9 -/
theorem test_steps_oneShot :
    (computeSteps tc0 { p0 with osRes := u 1, osCap := u 1 } 10).osChg = 1 / 4 ∧
    (computeSteps tc0 { p0 with osCap := u 1 } 10).osDis = 1 / 10 ^ 31 ∧
    (computeSteps tc0 { p0 with osRes := u 1 } 10).osChg = 10 ^ 29 ∧
    (computeSteps tc0 p0 10).osDis = 0 ∧
    (computeSteps tc0 { p0 with osRes := u 47000, osCap := u (1 / 1000000) } 44100).osChg =
      25 / 20727 := by decide +kernel
/-- V3.15, V3.17: the attack resistor for the charge, the decay resistor for the discharge. -/
theorem test_steps_envelope :
    (computeSteps tc0 { p0 with attackRes := u 1, adCap := u 1 } 10).adChg = 11 / 25 ∧
    (computeSteps tc0 { p0 with attackRes := u 1, adCap := u 1 } 10).adDis = 1 / 10 ^ 31 ∧
    (computeSteps tc0 { p0 with decayRes := u 2 } 10).adChg = 0 ∧
    (computeSteps tc0 { p0 with decayRes := u 2 } 10).adDis = 10 ^ 29 := by decide +kernel

/-- V3.11's parameters with a pitch and a VCO voltage. -/
def pd (pitch vco : ℚ) : Params :=
  { p0 with vcoRes := u 1, vcoCap := u (1 / 2), pitchVoltage := pitch, vcoVoltage := vco }

/-- V3.21, V3.22, V3.23, V3.25, V3.27, V3.28 -/
theorem test_duty_steps :
    ∀ x ∈ ([(1, 5, 9 / 50, 25 / 82, 41 / 50), (5, 2, 1, 10 ^ 30, 0), (3, 4, 3 / 8, 2 / 5, 5 / 8),
      (3, 0, 1 / 2, 1 / 2, 1 / 2), (-5, 5, 9 / 50, 25 / 82, 41 / 50),
      (-5, -5, 1 / 2, 1 / 2, 1 / 2)] : List (ℚ × ℚ × ℚ × ℚ × ℚ)),
    duty (pd x.1 x.2.1) = x.2.2.1 ∧ (computeSteps tc0 (pd x.1 x.2.1) 10).vcoChg = x.2.2.2.1 ∧
    (computeSteps tc0 (pd x.1 x.2.1) 10).vcoDis = x.2.2.2.2 := by decide +kernel

/-! ### The stages (95_test_vectors.md sections 4 to 8) -/

/-- One-shot and SLF parameters of section 4. -/
def po : Params := { p0 with osRes := u 1, osCap := u 1, slfRes := u 1, slfCap := u (1 / 2) }

/-- The one-shot before and after one sub-step: `OS_EXT_V` if overridden, then `OS_V`, `OS_RUN`. -/
def osTo (ext : Option ℚ) (v : ℚ) (r : Bool) (v' : ℚ) (r' : Bool) : Bool :=
  let p := match ext with | none => po | some e => { po with osExtV := e, extEn := 0b001#3 }
  let t := (run1 p { k0 with osV := v, osRun := r }).1
  t.osV == v' && t.osRun == r'

/-- V4.1, V4.2, V4.3, V4.5, V4.7, V4.9, V4.10 -/
theorem test_oneShot : osTo none 0 true (1 / 4) true ∧ osTo none (9 / 4) true (5 / 2) false ∧
    osTo none (19 / 8) true (5 / 2) false ∧ osTo none (1 / 8) false 0 false ∧
    osTo none 1 false (3 / 4) false ∧ osTo (some 9) 1 true 1 false ∧
    osTo (some 2) 1 true 1 true := by decide +kernel

/-- The SLF before and after one sub-step. -/
def slfTo (ext : Option ℚ) (v : ℚ) (f : Bool) (v' : ℚ) (f' : Bool) : Bool :=
  let p := match ext with | none => po | some e => { po with slfExtV := e, extEn := 0b010#3 }
  let t := (run1 p { k0 with slfV := v, slfFf := f }).1
  t.slfV == v' && t.slfFf == f'

/-- V4.20, V4.22, V4.23, V4.24, V4.26, V4.28, V4.30 -/
theorem test_slf : slfTo none (1 / 2) false (9 / 10) false ∧ slfTo none (23 / 10) false (5 / 2) true ∧
    slfTo none (5 / 2) true (21 / 10) true ∧ slfTo none (9 / 10) true (1 / 2) false ∧
    slfTo none (13 / 10) true (9 / 10) true ∧ slfTo (some (1 / 2)) (13 / 10) true (13 / 10) false ∧
    slfTo (some 1) (13 / 10) false (13 / 10) false := by decide +kernel

/-- The VCO before and after one sub-step, the SLF held at `slf` by its override: `VCO_V`, `VCO_FF`,
`VCO_ALT`, and the auxiliary value. -/
def vcoTo (slf : ℚ) (m : VcoMode) (ext : Option ℚ) (v : ℚ) (f a : Bool) (v' : ℚ) (f' a' : Bool)
    (aux : ℚ) : Bool :=
  let p := { p0 with vcoRes := u 1, vcoCap := u (1 / 2), slfExtV := slf, vcoMode := m }
  let p := match ext with
    | none => { p with extEn := 0b010#3 }
    | some e => { p with vcoExtV := e, extEn := 0b110#3 }
  let r := run1 p { k0 with vcoV := v, vcoFf := f, vcoAlt := a }
  r.1.vcoV == v' && r.1.vcoFf == f' && r.1.vcoAlt == a' && r.2.2 == aux

/-- V4.40, V4.41, V4.42, V4.44, V4.46, V4.47, V4.48 -/
theorem test_vco_internal :
    vcoTo (9 / 10) .internal none (1 / 2) false false 1 false false 1 ∧
    vcoTo (9 / 10) .internal none 1 false false (7 / 5) true true (7 / 5) ∧
    vcoTo (9 / 10) .internal none 1 false true (7 / 5) true false (7 / 5) ∧
    vcoTo (9 / 10) .internal none (9 / 10) true true (1 / 2) false true (1 / 2) ∧
    vcoTo (9 / 10) .internal none 2 true true (3 / 2) true true (3 / 2) ∧
    vcoTo 3 .internal none (5 / 2) false false 3 false false 3 ∧
    vcoTo (-1) .internal none 1 false false (1 / 2) true true (1 / 2) := by decide +kernel
/-- V4.50, V4.51, V4.53, V4.54, V4.55 -/
theorem test_vco_override_and_external :
    vcoTo (9 / 10) .internal (some (7 / 5)) 1 false false 1 true true (7 / 5) ∧
    vcoTo (9 / 10) .internal (some (1 / 2)) 1 true true 1 false true (1 / 2) ∧
    vcoTo (9 / 10) .internal (some (7 / 2)) 1 false false 1 true true (7 / 2) ∧
    vcoTo (9 / 10) .external none 1 false false (1 / 2) true true (1 / 2) ∧
    vcoTo (9 / 10) .external none 2 true true (3 / 2) true true (3 / 2) := by decide +kernel

/-- V5.1 to V5.13 -/
theorem test_noise_clock : ([(0x00000000, 0x40000000), (0x00000020, 0x40000010),
    (0x00000002, 0x00000001), (0x00000001, 0x40000000), (0x10000000, 0x48000000),
    (0x10000001, 0x08000000), (0x7FFFFFFF, 0x3FFFFFFF), (0x40000000, 0x60000000),
    (0x6FFFFFE0, 0x77FFFFF0), (0x00000010, 0x00000008), (0x2FFFFFE0, 0x57FFFFF0),
    (0x55555555, 0x2AAAAAAA), (0x2AAAAAAA, 0x15555555)] : List (NoiseReg × NoiseReg)).all
    (fun x => noiseClock x.1 == x.2) := by decide +kernel
/-- Section 5: the register after clocks 0 to 8 and 28 to 40 of the run from the seed. -/
theorem test_noise_run :
    (List.zip [0x00000000#31, 0x40000000#31, 0x60000000#31, 0x70000000#31, 0x78000000#31,
        0x7C000000#31, 0x7E000000#31, 0x7F000000#31]
      [0x40000000#31, 0x60000000#31, 0x70000000#31, 0x78000000#31, 0x7C000000#31, 0x7E000000#31,
        0x7F000000#31, 0x7F800000#31]).all (fun x => noiseClock x.1 == x.2) ∧
    (List.zip [0x7FFFFFF8#31, 0x7FFFFFFC#31, 0x7FFFFFFE#31, 0x7FFFFFFF#31, 0x3FFFFFFF#31,
        0x1FFFFFFF#31, 0x0FFFFFFF#31, 0x47FFFFFF#31, 0x63FFFFFF#31, 0x71FFFFFF#31, 0x38FFFFFF#31,
        0x1C7FFFFF#31]
      [0x7FFFFFFC#31, 0x7FFFFFFE#31, 0x7FFFFFFF#31, 0x3FFFFFFF#31, 0x1FFFFFFF#31, 0x0FFFFFFF#31,
        0x47FFFFFF#31, 0x63FFFFFF#31, 0x71FFFFFF#31, 0x38FFFFFF#31, 0x1C7FFFFF#31, 0x0E3FFFFF#31]).all
      (fun x => noiseClock x.1 == x.2) := by decide +kernel
/-- V5.21, V5.22, V5.23, V5.24, V5.25, V5.26 -/
theorem test_noise_frequency : ∀ x ∈ ([(300, 3), (10, 100), (1000, 1), (999 / 100, 0), (1001, 0),
    (0, 0)] : List (ℚ × ℤ)), noiseFreq tc0 { p0 with noiseClockRes := u x.1 } = x.2 := by
  decide +kernel
/-- V5.30, V5.33, V5.36, V5.38, V5.40, V5.41, V5.42, V5.44: `NCNT` and the clocks, from the seed. -/
theorem test_noise_counter : ∀ x ∈ ([(0, 10, 10, 2, 10), (7, 3, 10, 0, 4), (0, 25, 10, 3, 5),
    (10, 25, 10, 2, 5), (12345, 0, 10, 0, 12345), (44100, 10, 10, 0, 44090),
    (0, 1, 48000, 1, 47999), (3, 3, 10, 1, 10)] : List (ℤ × ℤ × ℕ+ × ℕ × ℤ)),
    noiseCount tc0 x.2.1 x.2.2.1 x.1 0#31 = (x.2.2.2.2, noiseClock^[x.2.2.2.1] 0#31) := by
  decide +kernel
/-- V5.43 -/
theorem test_noise_counter_clamp :
    (noiseCount (tcWith 1 4) 10 10 0 0#31).1 = 4 := by decide +kernel

/-- The filter before and after one sub-step: `RNG[30]`, `NF_V`, `FNOISE_FF`. -/
def nfTo (raw : Bool) (v : ℚ) (f : Bool) (v' : ℚ) (f' : Bool) : Bool :=
  let t := (run1 { p0 with noiseFilterRes := u 1, noiseFilterCap := u 1 }
    { k0 with rng := if raw then 0x40000000#31 else 0#31, nfV := v, fnoiseFf := f }).1
  t.nfV == v' && t.fnoiseFf == f'

/-- V5.50, V5.51, V5.52, V5.53, V5.57, V5.58 -/
theorem test_noise_filter : nfTo true (5 / 2) true 3 false ∧ nfTo true 2 true (5 / 2) true ∧
    nfTo true 2 false (5 / 2) false ∧ nfTo false (3 / 2) false 1 true ∧ nfTo false (1 / 4) true 0 true ∧
    nfTo true (19 / 4) false 5 false := by decide +kernel

/-- V6.1 to V6.32 -/
theorem test_envelope_direction : ∀ v o a : Bool, envCharging .vco v o a = v ∧
    envCharging .oneShot v o a = o ∧ envCharging .mixerOnly v o a = true ∧
    envCharging .vcoAltPolarity v o a = (v && a) := by decide
/-- V6.40, V6.41, V6.43, V6.44, V6.45, V6.46 -/
theorem test_envelope : ∀ x ∈ ([(true, 0, 11 / 25, 11 / 50, 11 / 25),
    (true, 4, 11 / 25, 11 / 50, 22 / 5), (false, 22 / 5, 11 / 25, 11 / 50, 209 / 50),
    (false, 1 / 10, 11 / 25, 11 / 50, 0), (true, 1, 0, 0, 22 / 5),
    (false, 3, 0, 0, 0)] : List (Bool × ℚ × ℚ × ℚ × ℚ)),
    envMove tc0 x.1 x.2.1 x.2.2.1 x.2.2.2.1 = x.2.2.2.2 := by decide +kernel

/-- The sample of `ENABLE_N`, `vco_eff`, the mixer's bit (mode VCO) and `AD_V`. -/
def sample (en : Bool) (vcoEff : ℚ) (bit : Bool) (adV : ℚ) : ℤ :=
  outputStage tc0 { p0 with enableN := en, mixer := 0b001#3 } vcoEff
    { k0 with vcoFf := bit, adV := adV }

/-- V8.1, V8.3, V8.5, V8.6, V8.11, V8.14, V8.15, V8.16, V8.17, V8.19, V8.20 -/
theorem test_sample : sample false 1 true 0 = 0 ∧ sample false 1 true (99 / 100) = 112 ∧
    sample false 1 false 1 = -250 ∧ sample false 1 true (33 / 25) = 162 ∧
    sample false 1 true (41 / 10) = 500 ∧ sample false 1 false (22 / 5) = -1000 ∧
    sample false 1 true 5 = 500 ∧ sample false 1 true (-1 / 2) = 0 ∧
    sample true 1 true (22 / 5) = 0 ∧ sample false 3 true 2 = 250 ∧
    sample false (7 / 2) true 2 = 0 := by decide +kernel
/-- After V8.24: with `FULL_SCALE = 32767`, a negative fraction is cut toward zero. -/
theorem test_sample_truncation : sampleOf { tc0 with fullScale := 32767 } 2 = -8191 ∧
    sampleOf { tc0 with fullScale := 32767 } 3 = 8191 := by decide +kernel
/-- -1000 to 500 need 11 bits in two's complement. -/
theorem test_sample_width : sampleW tc0 = 11 := by decide +kernel

/-! ### UPDATE (95_test_vectors.md section 10) -/

/-- Program P3's parameters. -/
def p3 : Params :=
  { p0 with vcoRes := u 1, vcoCap := u 1, attackRes := u 1, adCap := u 1, mixer := 0b001#3
            envMode := .mixerOnly }

/-- A machine state over TC0. -/
def sOf (p : Params) (k : CircuitState) : State := ⟨p, 10, k, Response.reset, []⟩

/-- Program P1, and P3's first row. -/
theorem test_update : ((sOf p0 k0).updated tc0).rsp = ⟨true, 0, 1 / 2⟩ ∧
    ((sOf p0 k0).updated tc0).circuit = { k0 with fnoiseFf := true } ∧
    ((sOf p3 k0).updated tc0).rsp = ⟨true, -100, 3 / 4⟩ := by decide +kernel
/-- Program P8, row u1: two sub-steps in one UPDATE, the last one's response. -/
theorem test_update_two_substeps : ((sOf p3 k0).updated (tcWith 2 1000000000)).rsp = ⟨true, 100, 1⟩ ∧
    ((sOf p3 k0).updated (tcWith 2 1000000000)).circuit.adV = 22 / 25 := by decide +kernel

/-! ### The notation (30_encoding.md rules R95, R96; 95_test_vectors.md section 9) -/

theorem test_assembler_text : lineOf (.setpMixer 5#3) = "setp MIXER, 5" ∧
    lineOf (.setpEnvMode .oneShot) = "setp ENV_MODE, ONE_SHOT" ∧ lineOf (.setsr 44100) = "setsr 44100" ∧
    lineOf (.setpVcoExtV (-3 / 2)) = "setp VCO_EXT_V, -3/2" ∧ lineOf .trig = "trig" := by
  decide +kernel
theorem test_encoding_text : encodingText .nop = "00:-" ∧ encodingText (.setsr 44100) = "03:44100" ∧
    encodingText (.setpSlfCap (u (1 / 2))) = "23:1/2" ∧ encodingText (.setpMixer 5#3) = "2E:5" ∧
    encodingText (.setpEnvMode .oneShot) = "2F:1" ∧ encodingText (.setpVcoExtV (-3 / 2)) = "34:-3/2" := by
  decide +kernel

/-- Rules R95 and R96, their own examples, and lines of 95_test_vectors.md section 10. -/
theorem test_read_lines :
    readLine "setsr 20    ; a comment" = some [.setsr 20] ∧ readLine "  ; only a comment" = some [] ∧
    readLine "setp OS_RES, 47000" = some [.setpOsRes (u 47000)] ∧
    readLine "setp SLF_CAP, 1/2" = some [.setpSlfCap (u (1 / 2))] ∧
    readLine "setp VCO_EXT_V, -1.5" = some [.setpVcoExtV (-3 / 2)] ∧
    readLine "setp NOISE_FILTER_CAP, 0.33" = some [.setpNoiseFilterCap (u (33 / 100))] ∧
    readLine "setp MIXER, 0b101" = some [.setpMixer 5#3] ∧
    readLine "setp ENV_MODE, VCO_ALT_POLARITY" = some [.setpEnvMode .vcoAltPolarity] ∧
    readLine "setp VCO_MODE, 1" = some [.setpVcoMode .external] := by decide +kernel
theorem test_read_pseudo_lines : readLine "update" = some [.update 1] ∧
    readLine "setad 1, 2, 3" =
      some [.setpAttackRes (u 1), .setpDecayRes (u 2), .setpAdCap (u 3)] ∧
    readLine "setmix 1, 0, 1" = some [.setpMixer 5#3] ∧
    readLine "disable" = some [.setpEnableN true] := by decide +kernel
/-- No mode of three bits, no slot of that name, no command of that name. -/
theorem test_read_refuses : readLine "setp MIXER, 8" = none ∧ readLine "setp OS_RES, -1" = none ∧
    readLine "setp OS_R, 1" = none ∧ readLine "wait" = none := by decide +kernel

/-! ### Witnesses: concrete values that meet the hypotheses of each statement, clause by clause -/

theorem witness_DecodeOfEncodeIsTheCommand : ∀ i ∈ [.setsr 255, .update 0, .setpOsRes (u 0),
    .setpAdCap (u (255 / 4)), .setpVcoVoltage (-32), .setpVcoExtV (127 / 4), .setpMixer 0b111#3,
    .setpEnvMode .vcoAltPolarity, .setpEnableN true], Instr.wellFormed tc0 i = true := by decide +kernel
theorem witness_DecodedCommandIsWellFormed :
    decode tc0 (cmd 0x34 0xFF) = .ok (.setpVcoExtV (-1 / 4)) := by decide +kernel
/-- The ends of each range of opcodes, and a state whose next command is reserved. -/
theorem witness_ReservedEncodingsAreRefused :
    (∀ op ∈ [0x05, 0x1F, 0x40, 0xFF], (0x05 ≤ (cmd op 0).op.toNat ∧ (cmd op 0).op.toNat ≤ 0x1F) ∨
      0x40 ≤ (cmd op 0).op.toNat) ∧
    (∀ op ∈ [0x36, 0x3F], 0x36 ≤ (cmd op 0).op.toNat ∧ (cmd op 0).op.toNat ≤ 0x3F) ∧
    (∀ op ∈ [0x00, 0x04, 0x20, 0x35], (cmd op 0).op.toNat ≤ 0x04 ∨
      (0x20 ≤ (cmd op 0).op.toNat ∧ (cmd op 0).op.toNat ≤ 0x35)) ∧
    (State.reset.present ⟨0x3F#8, 0⟩).inputs = [.command ⟨0x3F#8, 0⟩] ∧
    decode Config.cfg ⟨0x3F#8, 0⟩ = .error (.reservedSlot 0x1F#5) :=
  ⟨by decide, by decide, by decide, rfl, rfl⟩
theorem witness_StepRunsTheDecodedCommand :
    (State.reset.present ⟨0x02#8, 0⟩).inputs = .command ⟨0x02#8, 0⟩ :: [] ∧
    decode Config.cfg ⟨0x02#8, 0⟩ = .ok .trig := ⟨rfl, rfl⟩
theorem witness_StepRunsThePresentedWord : decodeTableWord 8 0x02 = some .trig := by decide +kernel
theorem witness_IdleStepKeepsAllState : State.reset.inputs = [] := rfl
theorem witness_RstResetsTheWholeBlock :
    ({ s1 with inputs := [.rst, .rst] } : State).inputs = .rst :: [.rst] := rfl
theorem witness_TrigSetsOnlyOsRun :
    (s1.setCircuit { k0 with osRun := true }).circuit.osRun = true := rfl
theorem witness_TrigSetsOnlyOsRun_raises :
    exec .trig s1 = .next (s1.setCircuit { s1.circuit with osRun := true }) ∧
    s1.circuit.osRun = false ∧
    (s1.setCircuit { s1.circuit with osRun := true }).circuit.osRun = true := ⟨rfl, rfl, rfl⟩
/-- Both clauses, at the boundary between them. -/
theorem witness_SetsrStoresAPositiveRate : 1 ≤ 1 ∧ 0 = 0 := by decide
theorem witness_SetpWritesItsSlotOnly :
    slotWrite? (.setpOsRes (u 0)) = some (.osRes, .unsigned (u 0)) ∧
    slotWrite? (.setpExtEn 7#3) = some (.extEn, .bits3 7#3) := ⟨rfl, rfl⟩
/-- Different slots, and the same slot. -/
theorem witness_SetpsCommuteOrOverwrite :
    (slotWrite? (.setpMixer 1#3) = some (.mixer, .bits3 1#3) ∧
      slotWrite? (.setpExtEn 2#3) = some (.extEn, .bits3 2#3) ∧
      Executes [.setpMixer 1#3, .setpExtEn 2#3] s1
        (s1.setParams { s1.params with mixer := 1#3, extEn := 2#3 }) ∧ Slot.mixer ≠ .extEn) ∧
    (slotWrite? (.setpMixer 2#3) = some (.mixer, .bits3 2#3) ∧
      Executes [.setpMixer 1#3, .setpMixer 2#3] s1
        (s1.setParams { s1.params with mixer := 2#3 })) :=
  ⟨⟨rfl, rfl, .cons rfl (.cons rfl .nil), by decide⟩, rfl, .cons rfl (.cons rfl .nil)⟩
theorem witness_AllButUpdateAreIdempotent :
    (∀ n, Instr.init ≠ .update n) ∧ exec .init s1 = .next (s1.initialised Config.cfg) :=
  ⟨fun _ => nofun, rfl⟩
/-- An UPDATE, whose response is valid, a NOP, after which none is, and an idle step. -/
theorem witness_OnlyUpdateResponds :
    (decode Config.cfg ⟨0x04#8, 0⟩ = .ok (.update (Config.cfg.decN 0)) ∧
      step (s1.present ⟨0x04#8, 0⟩) = .next ((s1.accept []).updated Config.cfg) ∧
      ((s1.accept []).updated Config.cfg).rsp.valid = true) ∧
    (decode Config.cfg ⟨0x00#8, 0⟩ = .ok .nop ∧
      step (s1.present ⟨0x00#8, 0⟩) = .next (s1.accept []) ∧ (s1.accept []).rsp.valid = false ∧
      ∀ rest, (s1.present ⟨0x00#8, 0⟩).inputs ≠ .rst :: rest) ∧
    (step s1 = .next s1.idle ∧ ∀ rest, s1.inputs ≠ .rst :: rest) :=
  ⟨⟨rfl, rfl, rfl⟩, ⟨rfl, rfl, rfl, fun _ => nofun⟩, rfl, fun _ => nofun⟩
/-- SAMPLE_RATE written, a slot written, the CircuitState written. -/
theorem witness_WriteAccess :
    (exec (.setsr 21) s1 = .next (s1.setSampleRate 21) ∧
      (s1.setSampleRate 21).sampleRate ≠ s1.sampleRate) ∧
    (exec (.setpMixer 7#3) s1 = .next (s1.setParams { s1.params with mixer := 7#3 }) ∧
      (s1.setParams { s1.params with mixer := 7#3 }).params.read .mixer ≠ s1.params.read .mixer) ∧
    (exec .init s1 = .next (s1.initialised Config.cfg) ∧
      (s1.initialised Config.cfg).params.read .vcoMode ≠ s1.params.read .vcoMode ∧
      (s1.initialised Config.cfg).circuit ≠ s1.circuit) :=
  ⟨⟨rfl, by decide⟩, ⟨rfl, by decide⟩, rfl, by decide,
    fun h => absurd (congrArg CircuitState.ncnt h) (by decide)⟩
/-- `os_eff` at MAX and below it, without and with the override. -/
theorem witness_OneShotSubstep :
    (run1 po { k0 with osV := 9 / 4, osRun := true }).1.osV ≥ tc0.os.max ∧
    ¬ (run1 po { k0 with osRun := true }).1.osV ≥ tc0.os.max ∧
    (({ po with extEn := 0b001#3, osExtV := 5 / 2 } : Params).osExtV ≥ tc0.os.max) := by
  decide +kernel
/-- `slf_eff` at MAX, at MIN and between. -/
theorem witness_SlfSubstep :
    (run1 po { k0 with slfV := 21 / 10 }).1.slfV ≥ tc0.slf.max ∧
    (¬ (run1 po { k0 with slfV := 9 / 10, slfFf := true }).1.slfV ≥ tc0.slf.max ∧
      (run1 po { k0 with slfV := 9 / 10, slfFf := true }).1.slfV ≤ tc0.slf.min) ∧
    (¬ (run1 po k0).1.slfV ≥ tc0.slf.max ∧ ¬ (run1 po k0).1.slfV ≤ tc0.slf.min) := by decide +kernel
/-- The ceiling of the reset state is 1: `vco_eff` at it, at MIN below it, and between. -/
theorem witness_VcoSubstep :
    (run1 p0 k0).1.slfV + tc0.vcoOffset = 1 ∧ (run1 p0 { k0 with vcoV := 1 }).1.vcoV ≥ 1 ∧
    (¬ (run1 p0 k0).1.vcoV ≥ 1 ∧ (run1 p0 k0).1.vcoV ≤ tc0.vco.min) ∧
    (¬ (run1 p0 { k0 with vcoV := 3 / 4 }).1.vcoV ≥ 1 ∧
      ¬ (run1 p0 { k0 with vcoV := 3 / 4 }).1.vcoV ≤ tc0.vco.min) := by decide +kernel
/-- `NF_V` at the upper threshold, at the lower one and between. -/
theorem witness_NoiseFilterSubstep :
    (run1 p0 { k0 with nfV := 3 }).1.nfV ≥ tc0.nfThHigh ∧
    (¬ (run1 p0 { k0 with nfV := 1 }).1.nfV ≥ tc0.nfThHigh ∧
      (run1 p0 { k0 with nfV := 1 }).1.nfV ≤ tc0.nfThLow) ∧
    (¬ (run1 p0 { k0 with nfV := 2 }).1.nfV ≥ tc0.nfThHigh ∧
      ¬ (run1 p0 { k0 with nfV := 2 }).1.nfV ≤ tc0.nfThLow) := by decide +kernel
/-- Each mode's direction is the one the premises ask for. -/
theorem witness_EnvelopeSubstep : ∀ m : EnvMode, ∀ v o a : Bool,
    (m = .vco → envCharging m v o a = v) ∧ (m = .oneShot → envCharging m v o a = o) ∧
    (m = .mixerOnly → envCharging m v o a = true) ∧
    (m = .vcoAltPolarity → envCharging m v o a = (v && a)) := by
  intro m; cases m <;> decide
theorem witness_OutputSubstep : run1 p3 k0 = ((run1 p3 k0).1, -100, 3 / 4) := by decide +kernel
theorem witness_MixerTruthTable : 0b001#3 ≠ 0#3 ∧ 0b111#3 ≠ 0#3 := by decide
/-- Both clauses at 0, where they agree, and one value inside each. -/
theorem witness_TruncRoundsTowardZero :
    ((0 : ℚ) ≤ 0 ∧ trunc 0 = 0) ∧ ((0 : ℚ) ≤ 5 / 2 ∧ trunc (5 / 2) = 2) ∧
    ((-5 / 2 : ℚ) ≤ 0 ∧ trunc (-5 / 2) = -2) := by decide +kernel
theorem witness_PresencePolicy : (0 < (u 1).val ∧ 0 < (u 1).val) ∧ ((u 0).val = 0 ∧ 0 < (u 1).val) ∧
    (0 < (u 1).val ∧ (u 0).val = 0) ∧ ((u 0).val = 0 ∧ (u 0).val = 0) := by decide +kernel
theorem witness_DutyCycle : (pd 3 0).vcoVoltage = 0 ∧ (pd (-5) 5).vcoVoltage ≠ 0 ∧
    (pd (-5) 5).pitchVoltage / (pd (-5) 5).vcoVoltage < 0 := by decide +kernel
/-- `m` non-zero, `m` 0 with a base of 0 and of 1/2, and a duty of 1/2. -/
theorem witness_DutyMultiplierAndSentinelDivision :
    (1 - duty (pd 1 5)) * 2 ≠ 0 ∧
    ((1 - duty { p0 with pitchVoltage := 5, vcoVoltage := 2 }) * 2 = 0 ∧
      vcoChgBase tc0 { p0 with pitchVoltage := 5, vcoVoltage := 2 } 10 = 0) ∧
    ((1 - duty (pd 5 2)) * 2 = 0 ∧ 0 < vcoChgBase tc0 (pd 5 2) 10) ∧
    duty (pd 5 5) = 1 / 2 := by decide +kernel
theorem witness_NoiseClockBits :
    ([0, 1, 2, 3, 4, 28].all fun i => !(0x2FFFFFE0#31).getLsbD i) = true ∧
    ([0, 1, 2, 3, 4, 28].any fun i => (0x10000000#31).getLsbD i) = true ∧ 29 < 30 := by
  decide +kernel
/-- Both ends of the range, just outside each, and 0. -/
theorem witness_NoiseFrequency : (∀ r ∈ [10, 1000], tc0.noiseRMin ≤ (u r).val ∧ (u r).val ≤ tc0.noiseRMax) ∧
    ((u (999 / 100)).val < tc0.noiseRMin ∨ tc0.noiseRMax < (u (999 / 100)).val) ∧
    ((u 1001).val < tc0.noiseRMin ∨ tc0.noiseRMax < (u 1001).val) ∧ (u 0).val = 0 := by
  decide +kernel
theorem witness_NoiseCounterIsTheWhileLoop : (0 : ℤ) < 1 ∧ (0 : ℤ) ≤ 0 := by decide
/-- From the smallest counter, 0, at a frequency of 0, of 1 and of SAMPLE_RATE, where 2 rounds reach the
bound of rounds; and from a counter just above the frequency, where no round runs. -/
theorem witness_NoiseLoopBounds :
    (0 ≤ k0.ncnt ∧ (substep tc0 p0 10 (computeSteps tc0 p0 10) 0 k0).1.ncnt = 0) ∧
    (0 ≤ k0.ncnt ∧ (0 : ℤ) < 1 ∧ (substep tc0 p0 10 (computeSteps tc0 p0 10) 1 k0).1.ncnt = 9) ∧
    ((0 : ℤ) < 10 ∧ (substep tc0 p0 10 (computeSteps tc0 p0 10) 10 k0).1.rng = 0x60000000#31) ∧
    (0 ≤ ({ k0 with ncnt := 2 } : CircuitState).ncnt ∧ 1 < ({ k0 with ncnt := 2 } : CircuitState).ncnt ∧
      (substep tc0 p0 10 (computeSteps tc0 p0 10) 1 { k0 with ncnt := 2 }).1.rng = 0#31) := by
  decide +kernel
theorem witness_NoiseRegisterMovesByClocks :
    (exec (.update 1) s1 = .next (s1.updated Config.cfg) ∧ Instr.update 1 ≠ .init) ∧
    (exec .nop s1 = .next s1 ∧ Instr.nop ≠ .init ∧ ∀ n, Instr.nop ≠ .update n) :=
  ⟨⟨rfl, nofun⟩, rfl, nofun, fun _ => nofun⟩

/-- The reset CircuitState of any configuration is in range. -/
theorem reset_inRange (c : Config) : (CircuitState.reset c).InRange c :=
  ⟨⟨le_refl _, c.os.min_le_max⟩, ⟨le_refl _, c.slf.min_le_max⟩, ⟨le_refl _, c.vco.min_le_max⟩,
    ⟨le_refl _, c.nf.min_le_max⟩, le_refl _, c.ad.min_le_max⟩

theorem witness_CapacitorRangesAreKept : k0.InRange tc0 ∧ State.reset.circuit.InRange Config.cfg ∧
    step (State.reset.present ⟨0x04#8, 0⟩) = .next ((State.reset.accept []).updated Config.cfg) :=
  ⟨reset_inRange tc0, reset_inRange Config.cfg, rfl⟩
theorem witness_NoiseCounterBoundsAreKept :
    (0 ≤ ({ k0 with ncnt := 4000000000 } : CircuitState).ncnt) ∧
    State.reset.circuit.CounterBounded Config.cfg ∧
    step (State.reset.present ⟨0x04#8, 0⟩) = .next ((State.reset.accept []).updated Config.cfg) :=
  ⟨by decide, ⟨le_refl _, Int.natCast_nonneg _⟩, rfl⟩
theorem witness_SamplesFitThePort : State.reset.SampleFits ∧
    step (State.reset.present ⟨0x04#8, 0⟩) = .next ((State.reset.accept []).updated Config.cfg) :=
  ⟨⟨neg_nonpos.mpr (by positivity), pow_pos (by decide) _⟩, rfl⟩
theorem witness_StepKeepsTheInvariant : State.reset.circuit.InRange Config.cfg ∧
    State.reset.circuit.CounterBounded Config.cfg ∧ State.reset.SampleFits ∧
    step (State.reset.present ⟨0x04#8, 0⟩) = .next ((State.reset.accept []).updated Config.cfg) :=
  ⟨witness_CapacitorRangesAreKept.2.1, witness_NoiseCounterBoundsAreKept.2.1,
    witness_SamplesFitThePort.1, rfl⟩
theorem witness_ReachableStatesMeetTheInvariant :
    Reachable ((State.reset.accept []).updated Config.cfg) :=
  .step (.reset [.command ⟨0x04#8, 0⟩]) rfl

/-- Running and not running. -/
theorem witness_OneShotShape : ∀ b : Bool, ({ k0 with osRun := b } : CircuitState).InRange tc0 ∧
    po.extEn.getLsbD 0 = false := fun _ => ⟨reset_inRange tc0, rfl⟩
/-- A pulse of 10 sub-steps: the first clause at 0 and at 9, the second at 10. -/
theorem witness_OneShotPulseLength : ({ k0 with osRun := true } : CircuitState).InRange tc0 ∧
    po.extEn.getLsbD 0 = false ∧ 1 / 4 = (computeSteps tc0 po 10).osChg ∧ (0 : ℚ) < 1 / 4 ∧
    (∀ i : ℕ, 1 ≤ i → i ≤ 0 → k0.osV + i * (1 / 4) < tc0.os.max) ∧
    (∀ i : ℕ, 1 ≤ i → i ≤ 9 → k0.osV + i * (1 / 4) < tc0.os.max) ∧
    (∀ i : ℕ, 1 ≤ i → i < 10 → k0.osV + i * (1 / 4) < tc0.os.max) ∧
    tc0.os.max ≤ k0.osV + (10 : ℕ) * (1 / 4) := by
  have below : ∀ i : ℕ, i ≤ 9 → k0.osV + i * (1 / 4) < tc0.os.max := by decide +kernel
  exact ⟨reset_inRange tc0, rfl, by decide +kernel, by decide +kernel, by omega,
    fun i _ h => below i h, fun i _ h => below i (by omega), by decide +kernel⟩
/-- A rise of 5 sub-steps of 2/5: the first clause at 0 and at 4, the second at 5. -/
theorem witness_SlfRiseTime : tc0.slf.min < tc0.slf.max ∧ k0.slfV = tc0.slf.min ∧ k0.slfFf = false ∧
    po.extEn.getLsbD 1 = false ∧ 2 / 5 = (computeSteps tc0 po 10).slfChg ∧ (0 : ℚ) < 2 / 5 ∧
    tc0.slf.min + (0 : ℕ) * (2 / 5) < tc0.slf.max ∧ tc0.slf.min + (4 : ℕ) * (2 / 5) < tc0.slf.max ∧
    tc0.slf.max ≤ tc0.slf.min + (5 : ℕ) * (2 / 5) ∧
    tc0.slf.min + ((5 : ℕ) - 1) * (2 / 5) < tc0.slf.max := by decide +kernel
/-- The attack step positive, and 0. -/
theorem witness_EnvelopeSaturates : k0.InRange tc0 ∧
    (p3.envMode = .mixerOnly ∧ 0 < (computeSteps tc0 p3 10).adChg) ∧
    (({ p0 with envMode := .mixerOnly } : Params).envMode = .mixerOnly ∧
      (computeSteps tc0 { p0 with envMode := .mixerOnly } 10).adChg = 0) :=
  ⟨reset_inRange tc0, ⟨rfl, by decide +kernel⟩, rfl, by decide +kernel⟩
theorem witness_OverrideFreezesTheRegister :
    (∀ i ∈ [0, 1, 2], ({ p0 with extEn := 0b111#3 } : Params).extEn.getLsbD i = true) ∧
    p0.extEn.getLsbD 2 = false := by decide
theorem witness_StepsAreNonnegative_TheTenSteps :
    (⟨1 / 4, 1 / 4, 2 / 5, 2 / 5, 0, 0, 0, 0, 0, 0⟩ : Steps) = computeSteps tc0 po 10 := by
  decide +kernel
/-- A sub-step in which `VCO_FF` rises, and one in which it does not. -/
theorem witness_VcoAltTogglesOnRisingEdgesOnly :
    { k0 with vcoV := 1, vcoFf := true, vcoAlt := true, fnoiseFf := true, adV := 22 / 5 } =
      nextCircuit tc0 p0 10 { k0 with vcoV := 1 } ∧
    { k0 with fnoiseFf := true } = nextCircuit tc0 p0 10 k0 := by decide +kernel
theorem witness_UnsetComponentsStandStill : State.reset.circuit.InRange Config.cfg ∧
    exec (.update 1) State.reset = .next (State.reset.updated Config.cfg) ∧
    State.reset.params.osRes.val = 0 ∧ State.reset.params.osCap.val = 0 ∧
    State.reset.params.slfRes.val = 0 ∧ State.reset.params.slfCap.val = 0 ∧
    State.reset.params.noiseFilterRes.val = 0 ∧ State.reset.params.noiseFilterCap.val = 0 ∧
    State.reset.params.attackRes.val = 0 ∧ State.reset.params.decayRes.val = 0 ∧
    State.reset.params.adCap.val = 0 :=
  ⟨reset_inRange Config.cfg, rfl, rfl, rfl, rfl, rfl, rfl, rfl, rfl, rfl, rfl⟩
/-- An unset VCO with the ceiling, here 1, at the register; below it while the flip-flop is 1; under
override; and just below it while charging, where the register goes down to the ceiling. -/
theorem witness_UnsetComponentsStandStill_vco : p0.vcoRes.val = 0 ∧ p0.vcoCap.val = 0 ∧
    ({ k0 with vcoV := 1 } : CircuitState).InRange tc0 ∧
    ({ k0 with vcoV := 2 } : CircuitState).InRange tc0 ∧
    ((1 : ℚ) ≤ 1 ∧ (1 : ℚ) < 2) ∧
    (nextCircuit tc0 p0 10 { k0 with vcoV := 1 }).slfV + tc0.vcoOffset = 1 ∧
    (nextCircuit tc0 p0 10 { k0 with vcoV := 1 }).vcoV = 1 ∧
    (nextCircuit tc0 p0 10 { k0 with vcoV := 2, vcoFf := true }).vcoV = 2 ∧
    (nextCircuit tc0 { p0 with extEn := 0b100#3 } 10 { k0 with vcoV := 2 }).vcoV = 2 ∧
    (nextCircuit tc0 p0 10 { k0 with vcoV := 2 }).vcoV = 1 := by
  unfold CircuitState.InRange
  decide +kernel
theorem witness_DisabledOutputIsSilent :
    (s1.setParams { s1.params with enableN := true }).params.enableN = true := rfl
theorem witness_SampleBounds : ∀ i : Fin 45,
    0 ≤ tc0.peakGain * tc0.posGain.get i ∧ tc0.peakGain * tc0.negGain.get i ≤ 0 := by decide +kernel
theorem witness_UpdateSeesTheLatestParameters :
    (∀ i ∈ [Instr.setpOsRes (u 1), .trig], ∀ m, i ≠ .update m) ∧
    Executes [.setpOsRes (u 1), .trig] s1
      ((s1.setParams { s1.params with osRes := u 1 }).setCircuit { s1.circuit with osRun := true }) :=
  ⟨by simp, .cons rfl (.cons rfl .nil)⟩
theorem witness_PseudoInstructionsExpand :
    Executes (expandPseudo (.setmix true false true)) s1
      (s1.setParams { s1.params with mixer := 0b101#3 }) ∧
    Executes (expandPseudo (.setad (u 1) (u 2) (u 3))) s1
      (s1.setParams { s1.params with attackRes := u 1, decayRes := u 2, adCap := u 3 }) :=
  ⟨.cons rfl .nil, .cons rfl (.cons rfl (.cons rfl .nil))⟩

end Sys2Proof.Tests
end

section
/-! PROOFS. What a step of the machine can do, said once: its inversion, the inversion of `exec`, and
the induction over the sub-steps of an UPDATE, for any predicate on the CircuitState. -/

namespace Sys2Proof.Machine

/-- What a completed step did: idled, was reset, or executed the command at the port. -/
theorem step_cases {s t : State} (h : step s = .next t) :
    (s.inputs = [] ∧ t = s.idle) ∨
    (∃ rest, s.inputs = .rst :: rest ∧ t = State.powerOnReset rest) ∨
    (∃ w rest i, s.inputs = .command w :: rest ∧ decode Config.cfg w = .ok i ∧
      exec i (s.accept rest) = .next t) := by
  unfold step at h
  split at h
  next hin => exact .inl ⟨hin, (Host.Outcome.next.inj h).symm⟩
  next rest hin => exact .inr (.inl ⟨rest, hin, (Host.Outcome.next.inj h).symm⟩)
  next w rest hin =>
    split at h
    next i hi => exact .inr (.inr ⟨w, rest, i, hin, hi, h⟩)
    next => cases h

/-- What a completed command did: INIT, TRIG and UPDATE have their own effect, and every other
command writes at most the Parameter Store and SAMPLE_RATE. -/
theorem exec_cases {i : Instr} {s t : State} (h : exec i s = .next t) :
    (i = .init ∧ t = s.initialised Config.cfg) ∨
    (i = .trig ∧ t = s.setCircuit { s.circuit with osRun := true }) ∨
    (∃ n, i = .update n ∧ t = s.updated Config.cfg) ∨
    ((i ≠ .init ∧ i ≠ .trig ∧ ∀ n, i ≠ .update n) ∧
      ∃ sr p, t = (s.setSampleRate sr).setParams p) := by
  cases i with
  | init => exact .inl ⟨rfl, (Host.Outcome.next.inj h).symm⟩
  | trig => exact .inr (.inl ⟨rfl, (Host.Outcome.next.inj h).symm⟩)
  | update n => exact .inr (.inr (.inl ⟨n, rfl, (Host.Outcome.next.inj h).symm⟩))
  | setsr n =>
    refine .inr (.inr (.inr ⟨⟨nofun, nofun, nofun⟩, ?_⟩))
    change execSetsr n s = .next t at h
    unfold execSetsr at h
    split at h
    · exact ⟨_, s.params, (Host.Outcome.next.inj h).symm⟩
    · exact ⟨s.sampleRate, s.params, (Host.Outcome.next.inj h).symm⟩
  | _ =>
    exact .inr (.inr (.inr ⟨⟨nofun, nofun, nofun⟩,
      s.sampleRate, _, (Host.Outcome.next.inj h).symm⟩))

/-- The CircuitState an UPDATE leaves: `N_SUB` sub-steps under constant parameters (rule R222). -/
theorem runUpdate_circuit (c : Config) (p : Params) (sr : ℕ+) (k : CircuitState) :
    (runUpdate c p sr k).1 = (nextCircuit c p sr)^[(c.nSub : ℕ)] k := by
  rw [runUpdate, substeps_eq, ← PNat.natPred_add_one c.nSub, Function.iterate_succ_apply']
  rfl

/-- A predicate on the CircuitState that every sub-step keeps is kept by an UPDATE. -/
theorem runUpdate_keeps {P : CircuitState → Prop} {c : Config} {p : Params} {sr : ℕ+}
    (hsub : ∀ k, P k → P (nextCircuit c p sr k)) {k : CircuitState} (hk : P k) :
    P (runUpdate c p sr k).1 := by
  rw [runUpdate_circuit]
  exact Function.Iterate.rec P hk hsub c.nSub

/-- The step induction for any invariant of the CircuitState: reset establishes it, and TRIG's setting
of `OS_RUN` and every sub-step keep it. -/
theorem step_keeps_circuit {P : CircuitState → Prop} (hreset : P (CircuitState.reset Config.cfg))
    (htrig : ∀ k : CircuitState, P k → P { k with osRun := true })
    (hsub : ∀ p sr k, P k → P (nextCircuit Config.cfg p sr k)) {s t : State}
    (hs : P s.circuit) (h : step s = .next t) : P t.circuit := by
  obtain ⟨-, rfl⟩ | ⟨rest, -, rfl⟩ | ⟨w, rest, i, -, -, hexec⟩ := step_cases h
  · exact hs
  · exact hreset
  · obtain ⟨-, rfl⟩ | ⟨-, rfl⟩ | ⟨n, -, rfl⟩ | ⟨-, sr, p, rfl⟩ := exec_cases hexec
    · exact hreset
    · exact htrig _ hs
    · exact runUpdate_keeps (hsub _ _) hs
    · exact hs

end Sys2Proof.Machine
end

section
/-! PROOFS. The capacitor ranges (10_state.md rule R31): the reset values are the minima, and each of
the five stages that move a capacitor leaves it in its range, also under an override, where the
register keeps its value (41_oscillators.md rule R141). -/

namespace Sys2Proof.Machine

variable {c : Config} {p : Params} {st : Steps} {k : CircuitState}

theorem CircuitState.reset_inRange (c : Config) : (CircuitState.reset c).InRange c :=
  ⟨⟨le_rfl, c.os.min_le_max⟩, ⟨le_rfl, c.slf.min_le_max⟩, ⟨le_rfl, c.vco.min_le_max⟩,
    ⟨le_rfl, c.nf.min_le_max⟩, ⟨le_rfl, c.ad.min_le_max⟩⟩

theorem osMove_fst_mem (h : k.osV ∈ Set.Icc c.os.min c.os.max) :
    (osMove c p st k).1 ∈ Set.Icc c.os.min c.os.max :=
  withOverride_fst (P := (· ∈ Set.Icc c.os.min c.os.max)) h
    (moveCapacitor_mem c.os c.os.min_le_max _ _ _ _)

theorem slfMove_fst_mem (h : k.slfV ∈ Set.Icc c.slf.min c.slf.max) :
    (slfMove c p st k).1 ∈ Set.Icc c.slf.min c.slf.max :=
  withOverride_fst (P := (· ∈ Set.Icc c.slf.min c.slf.max)) h
    (moveCapacitor_mem c.slf c.slf.min_le_max _ _ _ _)

/-- Wherever the ceiling stands, also below `VCO_VMIN`: the range clamps last (rule R151). -/
theorem vcoUpdated_mem (ceiling : Voltage) :
    vcoUpdated c st ceiling k ∈ Set.Icc c.vco.min c.vco.max := by
  unfold vcoUpdated
  split <;> exact ⟨le_clamp c.vco.min_le_max, clamp_le⟩

theorem vcoMove_fst_mem {ceiling : Voltage} (h : k.vcoV ∈ Set.Icc c.vco.min c.vco.max) :
    (vcoMove c p st ceiling k).1 ∈ Set.Icc c.vco.min c.vco.max :=
  withOverride_fst (P := (· ∈ Set.Icc c.vco.min c.vco.max)) h (vcoUpdated_mem ceiling)

theorem oneShotStage_inRange (h : k.InRange c) : (oneShotStage c p st k).InRange c := by
  obtain ⟨hos, hrest⟩ := h
  exact ⟨osMove_fst_mem hos, hrest⟩

theorem slfStage_inRange (h : k.InRange c) : (slfStage c p st k).InRange c := by
  obtain ⟨hos, hslf, hrest⟩ := h
  exact ⟨hos, slfMove_fst_mem hslf, hrest⟩

theorem vcoStage_inRange {ceiling : Voltage} (h : k.InRange c) :
    (vcoStage c p st ceiling k).InRange c := by
  obtain ⟨hos, hslf, hvco, hrest⟩ := h
  exact ⟨hos, hslf, vcoMove_fst_mem hvco, hrest⟩

theorem noiseStage_inRange {freq : ℤ} {sr : ℕ+} (h : k.InRange c) :
    (noiseStage c freq sr st k).InRange c := by
  obtain ⟨hos, hslf, hvco, -, had⟩ := h
  exact ⟨hos, hslf, hvco, moveCapacitor_mem c.nf c.nf.min_le_max _ _ _ _, had⟩

theorem envelopeStage_inRange (h : k.InRange c) : (envelopeStage c p st k).InRange c := by
  obtain ⟨hos, hslf, hvco, hnf, -⟩ := h
  exact ⟨hos, hslf, hvco, hnf, envMove_mem c c.ad.min_le_max _ _ _ _⟩

/-- The five moving stages, composed in the order of 45_update_scheduler.md rule R223. -/
theorem substep_inRange {sr : ℕ+} {freq : ℤ} (h : k.InRange c) :
    (substep c p sr st freq k).1.InRange c :=
  envelopeStage_inRange <| noiseStage_inRange <| vcoStage_inRange <| slfStage_inRange <|
    oneShotStage_inRange h

/-- Settles O42: the stages keep the ranges one after the other, hence every sub-step does; a step of
the machine changes the CircuitState by sub-steps, by a reset, or in `OS_RUN` alone. -/
theorem capacitorRangesAreKept : Obligations.CapacitorRangesAreKept := by
  unfold Obligations.CapacitorRangesAreKept
  have hreset := CircuitState.reset_inRange Config.cfg
  refine ⟨hreset, fun _ _ _ _ _ _ hk => substep_inRange hk, fun _ _ hs hstep => ?_⟩
  exact step_keeps_circuit hreset (fun _ hk => hk) (fun _ _ _ hk => substep_inRange hk) hs hstep

end Sys2Proof.Machine
end

section
/-! PROOFS. The payload codec (30_encoding.md rule R86) and the payload classes (rules R85, R87): what
`enc_s` answers, and the low bits the mode classes read. -/

namespace Sys2Proof

variable {c : Config}

/-! ### `enc_s` -/

theorem Config.mem_words (d : Payload c) : d ∈ c.words :=
  List.mem_map.mpr ⟨d.toNat, List.mem_range.mpr d.isLt, by simp⟩

/-- The nearest words are the words at the least distance. -/
theorem Config.mem_nearestWords {v : Voltage} {d : Payload c} :
    d ∈ c.nearestWords v ↔ ∀ e : Payload c, |c.decS d - v| ≤ |c.decS e - v| := by
  simp [Config.nearestWords, Config.mem_words]

/-- There are finitely many words and at least one, so one of them is nearest. -/
theorem Config.nearestWords_ne_nil (v : Voltage) : c.nearestWords v ≠ [] := by
  obtain ⟨d, hd⟩ := Finite.exists_min fun d : Payload c => |c.decS d - v|
  exact List.ne_nil_of_mem (Config.mem_nearestWords.mpr hd)

/-- Whatever the codec's tie rule says, `enc_s` answers one of the nearest words. -/
theorem Config.encS_mem_nearestWords (v : Voltage) : c.encS v ∈ c.nearestWords v := by
  have hlt : c.codec.tie v % (c.nearestWords v).length < (c.nearestWords v).length :=
    Nat.mod_lt _ (List.length_pos_of_ne_nil (Config.nearestWords_ne_nil v))
  rw [Config.encS, List.getD_eq_getElem _ _ hlt]
  exact List.getElem_mem hlt

theorem Config.encS_nearest (v : Voltage) (e : Payload c) :
    |c.decS (c.encS v) - v| ≤ |c.decS e - v| :=
  Config.mem_nearestWords.mp (Config.encS_mem_nearestWords v) e

/-- A representable value is its own nearest value. -/
theorem Config.decS_encS_decS (d : Payload c) : c.decS (c.encS (c.decS d)) = c.decS d := by
  have hle := Config.encS_nearest (c.decS d) d
  rw [sub_self, abs_zero] at hle
  exact sub_eq_zero.mp (abs_nonpos_iff.mp hle)

/-- Settles O6: the zero word by the codec's own case for it, `enc_s` by the nearness of its answer. -/
theorem payloadCodec : Obligations.PayloadCodec := by
  unfold Obligations.PayloadCodec
  intro c
  have hzeroU : (c.decU 0).val = 0 := by simp [Config.decU]
  have hzeroS : c.decS 0 = 0 := by simp [Config.decS]
  exact ⟨c.three_le_payW, hzeroU, hzeroS, fun d => (c.decU d).property, Config.decS_encS_decS,
    Config.encS_nearest⟩

/-! ### The low bits -/

theorem Config.decB3_eq (d : Payload c) : c.decB3 d = BitVec.ofNat 3 (d.toNat % 8) := by
  apply BitVec.eq_of_toNat_eq
  simp [Config.decB3]

theorem Config.decB2_toNat (d : Payload c) : (c.decB2 d).toNat = d.toNat % 4 := by
  simp [Config.decB2]

theorem Config.decB1_eq (d : Payload c) : c.decB1 d = decide (d.toNat % 2 = 1) := by
  simp [Config.decB1, BitVec.getLsbD, Nat.testBit_zero]

/-- The numbering of the envelope modes (rule R89). -/
theorem EnvMode.ofBits_eq (b : BitVec 2) :
    EnvMode.ofBits b = if b.toNat = 0 then .vco else if b.toNat = 1 then .oneShot
      else if b.toNat = 2 then .mixerOnly else .vcoAltPolarity := by
  decide +revert

/-- The numbering of the VCO modes (rule R90), for a class B1 payload. -/
theorem VcoMode.ofBit_decB1 (d : Payload c) :
    VcoMode.ofBit (c.decB1 d) = if d.toNat % 2 = 0 then .internal else .external := by
  rw [Config.decB1_eq, VcoMode.ofBit]
  rcases Nat.mod_two_eq_zero_or_one d.toNat with h | h <;> simp [h]

end Sys2Proof
end

section
/-! PROOFS. The decoder on the opcodes of the table: formats Z and N opcode by opcode, and format P once
for all 22 slots, the slot's class giving the value (30_encoding.md rules R84, R85). -/

namespace Sys2Proof.Machine

open Sys2Proof.Laws.OpcodeTable (decode_formatP decode_formatZN)

variable (c : Config) (d : Payload c)

theorem decode_setsr : decode c ⟨0x03#8, d⟩ = .ok (.setsr d.toNat) :=
  decode_formatZN (by decide) rfl

theorem decode_update : decode c ⟨0x04#8, d⟩ = .ok (.update d.toNat) :=
  decode_formatZN (by decide) rfl

/-- The value a payload has in a slot's class. -/
def payloadValue (c : Config) (d : Payload c) : Slot → SlotValue
  | .osRes | .osCap | .slfRes | .slfCap | .vcoRes | .vcoCap | .noiseClockRes | .noiseFilterRes
  | .noiseFilterCap | .attackRes | .decayRes | .adCap => .unsigned (c.decU d)
  | .vcoVoltage | .pitchVoltage | .osExtV | .slfExtV | .vcoExtV => .signed (c.decS d)
  | .mixer | .extEn => .bits3 (c.decB3 d)
  | .envMode => .env (EnvMode.ofBits (c.decB2 d))
  | .vcoMode => .vcoMode (VcoMode.ofBit (c.decB1 d))
  | .enableN => .bit (c.decB1 d)

/-- The opcode `0x20 + slot` decodes to the SETP of that slot, with the payload's value in its class. -/
theorem decode_setp (slot : Slot) : ∃ i,
    decode c ⟨BitVec.ofNat 8 (0x20 + (slotNumber slot).toNat), d⟩ = .ok i ∧
      slotWrite? i = some (slot, payloadValue c d slot) := by
  cases slot <;> exact ⟨_, decode_formatP (by decide) rfl, rfl⟩

/-- Settles O5: each opcode's decoding, with the low bits of its class read as a remainder. -/
theorem modePayloadsTakeTheirLowBits : Obligations.ModePayloadsTakeTheirLowBits := by
  unfold Obligations.ModePayloadsTakeTheirLowBits
  intro c d
  rw [← Config.decB3_eq, ← Config.decB2_toNat, ← EnvMode.ofBits_eq, ← VcoMode.ofBit_decB1,
    ← Config.decB1_eq]
  exact ⟨decode_formatP (by decide) rfl, decode_formatP (by decide) rfl,
    decode_formatP (by decide) rfl, decode_formatP (by decide) rfl,
    decode_formatP (by decide) rfl, decode_setsr c d, decode_update c d⟩

end Sys2Proof.Machine
end

section
/-! PROOFS. The SETP commands as one write of one slot (47_commands_setp.md rule R260): what a read
returns after a write to the same and to another slot, and that `exec` is that write. -/

namespace Sys2Proof.Machine

variable {i : Instr} {slot other : Slot} {v : SlotValue}

/-- `P[slot] <- v`; a value of another class than the slot's, which no SETP carries, writes nothing. -/
def Params.write (p : Params) : Slot → SlotValue → Params
  | .osRes, .unsigned r => { p with osRes := r }
  | .osCap, .unsigned r => { p with osCap := r }
  | .slfRes, .unsigned r => { p with slfRes := r }
  | .slfCap, .unsigned r => { p with slfCap := r }
  | .vcoRes, .unsigned r => { p with vcoRes := r }
  | .vcoCap, .unsigned r => { p with vcoCap := r }
  | .vcoVoltage, .signed v => { p with vcoVoltage := v }
  | .pitchVoltage, .signed v => { p with pitchVoltage := v }
  | .noiseClockRes, .unsigned r => { p with noiseClockRes := r }
  | .noiseFilterRes, .unsigned r => { p with noiseFilterRes := r }
  | .noiseFilterCap, .unsigned r => { p with noiseFilterCap := r }
  | .attackRes, .unsigned r => { p with attackRes := r }
  | .decayRes, .unsigned r => { p with decayRes := r }
  | .adCap, .unsigned r => { p with adCap := r }
  | .mixer, .bits3 b => { p with mixer := b }
  | .envMode, .env m => { p with envMode := m }
  | .vcoMode, .vcoMode m => { p with vcoMode := m }
  | .enableN, .bit b => { p with enableN := b }
  | .osExtV, .signed v => { p with osExtV := v }
  | .slfExtV, .signed v => { p with slfExtV := v }
  | .vcoExtV, .signed v => { p with vcoExtV := v }
  | .extEn, .bits3 b => { p with extEn := b }
  | _, _ => p

/-- A SETP is the write of its slot, and completes. -/
theorem exec_of_slotWrite (h : slotWrite? i = some (slot, v)) (s : State) :
    exec i s = .next (s.setParams (s.params.write slot v)) := by
  cases i <;> cases h <;> rfl

/-- The value a SETP carries is of its slot's class, so the slot reads it back. -/
theorem Params.read_write_same (h : slotWrite? i = some (slot, v)) (p : Params) :
    (p.write slot v).read slot = v := by
  cases i <;> cases h <;> rfl

theorem Params.read_write_other (h : other ≠ slot) (p : Params) (v : SlotValue) :
    (p.write slot v).read other = p.read other := by
  unfold Params.write
  split
  all_goals
    revert h
    cases other <;> simp [Params.read]

theorem opcode_of_slotWrite (h : slotWrite? i = some (slot, v)) :
    i.opcode.toNat = 0x20 + (slotNumber slot).toNat := by
  cases i <;> cases h <;> rfl

/-- Settles O17: the decoder by the slot's class, the execution as the write of one slot. -/
theorem setpWritesItsSlotOnly : Obligations.SetpWritesItsSlotOnly := by
  unfold Obligations.SetpWritesItsSlotOnly
  refine ⟨fun c d slot => ?_, fun i slot v s hw => ?_⟩
  · obtain ⟨i, hdec, hw⟩ := decode_setp c d slot
    refine ⟨i, payloadValue c d slot, hdec, hw, ?_⟩
    cases slot <;> simp [payloadValue, Config.decB3, Config.decB2, Config.decB1]
  · exact ⟨opcode_of_slotWrite hw, _, exec_of_slotWrite hw s, Params.read_write_same hw s.params,
      fun _ hne => Params.read_write_other hne s.params v, rfl, rfl, rfl, rfl⟩

end Sys2Proof.Machine
end

section
/-! PROOFS. The response port (30_encoding.md rule R82): which commands and which steps write it. -/

namespace Sys2Proof.Machine

/-- An UPDATE responds; no other command touches the response port. -/
theorem exec_rsp {i : Instr} {s t : State} (h : exec i s = .next t) :
    (∃ n, i = .update n ∧ t.rsp.valid = true) ∨ ((∀ n, i ≠ .update n) ∧ t.rsp = s.rsp) := by
  obtain ⟨rfl, rfl⟩ | ⟨rfl, rfl⟩ | ⟨n, rfl, rfl⟩ | ⟨⟨-, -, hne⟩, sr, p, rfl⟩ := exec_cases h
  · exact .inr ⟨nofun, rfl⟩
  · exact .inr ⟨nofun, rfl⟩
  · exact .inl ⟨n, rfl, rfl⟩
  · exact .inr ⟨hne, rfl⟩

/-- The step takes an UPDATE from the port. -/
def TakesUpdate (s : State) : Prop :=
  ∃ w rest n, s.inputs = .command w :: rest ∧ decode Config.cfg w = .ok (.update n)

/-- A step without `rst` took an UPDATE and responds, or took none and only lets `rsp_valid` fall. -/
theorem step_rsp {s t : State} (h : step s = .next t) (hrst : ∀ rest, s.inputs ≠ .rst :: rest) :
    (TakesUpdate s ∧ t.rsp.valid = true) ∨
      (¬ TakesUpdate s ∧ t.rsp = { s.rsp with valid := false }) := by
  obtain ⟨hin, rfl⟩ | ⟨rest, hin, -⟩ | ⟨w, rest, i, hin, hdec, hexec⟩ := step_cases h
  · refine .inr ⟨?_, rfl⟩
    rintro ⟨w, rest, n, hcmd, -⟩
    simp [hin] at hcmd
  · exact absurd hin (hrst rest)
  · obtain ⟨n, rfl, hvalid⟩ | ⟨hne, hrsp⟩ := exec_rsp hexec
    · exact .inl ⟨⟨w, rest, n, hin, hdec⟩, hvalid⟩
    · refine .inr ⟨?_, hrsp⟩
      rintro ⟨w', rest', n, hin', hdec'⟩
      obtain ⟨⟨rfl⟩, rfl⟩ := List.cons.inj (hin.symm.trans hin')
      exact hne n (Except.ok.inj (hdec.symm.trans hdec'))

/-- Settles O20: a step responds with an UPDATE or keeps the held values; the reset port holds 0. -/
theorem onlyUpdateResponds : Obligations.OnlyUpdateResponds := by
  unfold Obligations.OnlyUpdateResponds
  refine ⟨fun s t h hrst => ?_, rfl, rfl, rfl⟩
  change (t.rsp.valid = true ↔ TakesUpdate s) ∧ _
  obtain ⟨hup, hvalid⟩ | ⟨hup, hrsp⟩ := step_rsp h hrst
  · simp [hup, hvalid]
  · simp [hup, hrsp]

end Sys2Proof.Machine
end

section
/-! PROOFS. The Rate Computer (40_rate_computer.md): what the presence policy, the division by
SAMPLE_RATE, the sentinel division and the duty cycle answer, case by case. -/

namespace Sys2Proof.Machine

/-! ### The presence policy and the ten steps (rules R111 to R117) -/

section Rate

variable (f : Component → Component → Component) {r k : Component}

theorem rate_of_present (hr : 0 < r.val) (hk : 0 < k.val) : rate f r k = (f r k).val :=
  if_pos ⟨hr, hk⟩

theorem rate_of_capacitor_only (hr : r.val = 0) (hk : 0 < k.val) :
    rate f r k = Config.rateNever := by
  simp [rate, hr, hk]

theorem rate_of_resistor_only (hr : 0 < r.val) (hk : k.val = 0) :
    rate f r k = Config.rateInstant := by
  simp [rate, hr, hk]

theorem rate_of_unset (hr : r.val = 0) (hk : k.val = 0) : rate f r k = 0 := by
  simp [rate, hr, hk]

end Rate

/-- SAMPLE_RATE is positive (10_state.md rule R27), so it can be divided by. -/
theorem sampleRate_ne_zero (sr : ℕ+) : ((sr : ℕ) : ℚ) ≠ 0 :=
  Nat.cast_ne_zero.mpr sr.ne_zero

theorem stepOf_mul_sampleRate (sr : ℕ+) (q : ℚ) : stepOf sr q * ((sr : ℕ) : ℚ) = q :=
  div_mul_cancel₀ q (sampleRate_ne_zero sr)

theorem stepOf_eq_zero_iff {sr : ℕ+} {q : ℚ} : stepOf sr q = 0 ↔ q = 0 :=
  div_eq_zero_iff.trans (or_iff_left (sampleRate_ne_zero sr))

/-- Settles O31: the four cases of `rate`, and `stepOf` as the division by a non-zero number. -/
theorem presencePolicy : Obligations.PresencePolicy := by
  unfold Obligations.PresencePolicy
  exact fun f r k =>
    ⟨fun ⟨hr, hk⟩ => rate_of_present f hr hk, fun ⟨hr, hk⟩ => rate_of_capacitor_only f hr hk,
      fun ⟨hr, hk⟩ => rate_of_resistor_only f hr hk, fun ⟨hr, hk⟩ => rate_of_unset f hr hk,
      fun sr q => ⟨stepOf_mul_sampleRate sr q, stepOf_eq_zero_iff⟩⟩

/-- Settles O32: each field of `computeSteps`, and each base of the VCO, is by definition the step of
that stage's rate. -/
theorem theTenSteps : Obligations.TheTenSteps := by
  unfold Obligations.TheTenSteps
  rintro c p sr st q rfl rfl
  exact ⟨rfl, rfl, rfl, rfl, rfl, rfl, rfl, rfl, rfl, rfl⟩

/-! ### The duty cycle (rule R121) -/

section Duty

variable {p : Params}

theorem duty_of_vcoVoltage_zero (h : p.vcoVoltage = 0) : duty p = 1 / 2 := if_pos h

theorem duty_of_vcoVoltage_ne_zero (h : p.vcoVoltage ≠ 0) :
    duty p = clamp (max (1 / 2 * p.pitchVoltage / p.vcoVoltage) (18 / 100)) 0 1 := if_neg h

/-- The clamp's lower end 0 never binds, as the inner `max` is at least the floor (rule R121). -/
theorem duty_eq_min (h : p.vcoVoltage ≠ 0) :
    duty p = min (max (1 / 2 * p.pitchVoltage / p.vcoVoltage) (18 / 100)) 1 := by
  have hpos : (0 : ℚ) ≤ 18 / 100 := by norm_num
  rw [duty_of_vcoVoltage_ne_zero h, clamp_eq_min (le_max_of_le_right hpos)]

theorem duty_mem_Icc (p : Params) : duty p ∈ Set.Icc (18 / 100 : ℚ) 1 := by
  by_cases h : p.vcoVoltage = 0
  · rw [duty_of_vcoVoltage_zero h]
    norm_num
  · rw [duty_eq_min h]
    exact ⟨le_min (le_max_right _ _) (by norm_num), min_le_right _ _⟩

theorem duty_of_negative_ratio (h : p.pitchVoltage / p.vcoVoltage < 0) : duty p = 18 / 100 := by
  have hne : p.vcoVoltage ≠ 0 := fun h0 => by simp [h0] at h
  have hfloor : 1 / 2 * p.pitchVoltage / p.vcoVoltage ≤ 18 / 100 := by
    rw [mul_div_assoc]
    linarith
  rw [duty_eq_min hne, max_eq_right hfloor]
  norm_num

/-- Settles O34, by the two cases of the divisor. -/
theorem dutyCycle : Obligations.DutyCycle := by
  unfold Obligations.DutyCycle
  intro p
  obtain ⟨hlow, hhigh⟩ := duty_mem_Icc p
  exact ⟨duty_of_vcoVoltage_zero, duty_of_vcoVoltage_ne_zero, hlow, hhigh, duty_of_negative_ratio⟩

end Duty

/-! ### The duty multiplier and the sentinel division (rules R122, R125) -/

theorem sdiv_of_ne_zero {a b : ℚ} (h : b ≠ 0) : sdiv a b = a / b := if_pos h

theorem sdiv_mul_cancel {a b : ℚ} (h : b ≠ 0) : sdiv a b * b = a := by
  rw [sdiv_of_ne_zero h, div_mul_cancel₀ a h]

theorem zero_sdiv_zero : sdiv 0 0 = 0 := rfl

theorem sdiv_zero_of_pos {a : ℚ} (h : 0 < a) : sdiv a 0 = Config.rateInstant := by
  simp [sdiv, h.ne']

/-- The ends of the duty's range, 1 and 18/100, give the ends of `m`'s. -/
theorem dutyMultiplier_mem_Icc (p : Params) : dutyMultiplier p ∈ Set.Icc (0 : ℚ) (41 / 25) := by
  obtain ⟨hlow, hhigh⟩ := duty_mem_Icc p
  unfold dutyMultiplier
  constructor <;> linarith

/-- A duty of 1/2 is no duty adjustment (rules R121, R122). -/
theorem dutyMultiplier_of_duty_half {p : Params} (h : duty p = 1 / 2) : dutyMultiplier p = 1 := by
  rw [dutyMultiplier, h]
  norm_num

theorem computeSteps_vcoChg (c : Config) (p : Params) (sr : ℕ+) :
    (computeSteps c p sr).vcoChg = sdiv (vcoChgBase c p sr) (dutyMultiplier p) := rfl

theorem computeSteps_vcoDis (c : Config) (p : Params) (sr : ℕ+) :
    (computeSteps c p sr).vcoDis = vcoDisBase c p sr * dutyMultiplier p := rfl

/-- Settles O35, by the three cases of the sentinel division at the duty multiplier. -/
theorem dutyMultiplierAndSentinelDivision : Obligations.DutyMultiplierAndSentinelDivision := by
  unfold Obligations.DutyMultiplierAndSentinelDivision
  rintro c p sr m (rfl : m = dutyMultiplier p)
  obtain ⟨hnonneg, hle⟩ := dutyMultiplier_mem_Icc p
  rw [computeSteps_vcoChg, computeSteps_vcoDis]
  refine ⟨hnonneg, hle, sdiv_mul_cancel, ?_, ?_, rfl, ?_⟩
  · rintro ⟨hm, hbase⟩
    rw [hm, hbase, zero_sdiv_zero]
  · rintro ⟨hm, hbase⟩
    rw [hm, sdiv_zero_of_pos hbase]
    rfl
  · intro hhalf
    rw [dutyMultiplier_of_duty_half hhalf, sdiv_of_ne_zero one_ne_zero, div_one, mul_one]
    exact ⟨rfl, rfl⟩

end Sys2Proof.Machine
end

section
/-! PROOFS. The Oscillator Set in a sub-step (41_oscillators.md): the movement and the comparator of
each oscillator case by case, then the fields of the CircuitState that stages 1 to 3 write. -/

namespace Sys2Proof.Machine

/-! ### What the oscillators share (rules R140, R141) -/

/-- The register moves unless it is under override. -/
theorem withOverride_fst_eq (b : Bool) (ext old updated : ℚ) :
    (withOverride b ext old updated).1 = if b = false then updated else old := by
  cases b <;> rfl

/-- The effective voltage is the register's new value, or the external voltage under override. -/
theorem withOverride_snd_eq (b : Bool) (ext old updated : ℚ) :
    (withOverride b ext old updated).2 =
      if b = false then (withOverride b ext old updated).1 else ext := by
  cases b <;> rfl

/-- A flip-flop that is 0 while CHARGING (rule R146) gives the direction by its negation. -/
theorem moveCapacitor_not (r : VoltageRange) (ff : Bool) (v chg dis : ℚ) :
    moveCapacitor r (!ff) v chg dis =
      if ff = false then clamp (v + chg) r.min r.max else clamp (v - dis) r.min r.max := by
  cases ff <;> rfl

section Comparators

variable {c : Config} {v ceiling : Voltage} {ff alt : Bool}

/-! ### The one-shot's MAX test (rule R144) -/

theorem osRunNext_of_ge_max (h : v ≥ c.os.max) : osRunNext c v ff = false := if_pos h

theorem osRunNext_of_not_ge_max (h : ¬ v ≥ c.os.max) : osRunNext c v ff = ff := if_neg h

/-! ### The SLF's flip-flop (rule R147) -/

theorem slfFfNext_of_ge_max (h : v ≥ c.slf.max) : slfFfNext c v ff = true := if_pos h

theorem slfFfNext_of_le_min (hmax : ¬ v ≥ c.slf.max) (hmin : v ≤ c.slf.min) :
    slfFfNext c v ff = false := by
  rw [slfFfNext, if_neg hmax, if_pos hmin]

theorem slfFfNext_of_between (hmax : ¬ v ≥ c.slf.max) (hmin : ¬ v ≤ c.slf.min) :
    slfFfNext c v ff = ff := by
  rw [slfFfNext, if_neg hmax, if_neg hmin]

/-! ### The VCO's ceiling, flip-flop and alternate-polarity toggle (rules R150, R152) -/

theorem vcoCeiling_eq (c : Config) (p : Params) (slfEff : Voltage) :
    vcoCeiling c p slfEff =
      if p.vcoMode = .internal then slfEff + c.vcoOffset else c.vcoOffset := by
  cases hmode : p.vcoMode <;> simp [vcoCeiling, hmode]

theorem vcoFfNext_of_ge_ceiling (h : v ≥ ceiling) : vcoFfNext c ceiling v ff = true := if_pos h

theorem vcoFfNext_of_le_min (hceil : ¬ v ≥ ceiling) (hmin : v ≤ c.vco.min) :
    vcoFfNext c ceiling v ff = false := by
  rw [vcoFfNext, if_neg hceil, if_pos hmin]

theorem vcoFfNext_of_between (hceil : ¬ v ≥ ceiling) (hmin : ¬ v ≤ c.vco.min) :
    vcoFfNext c ceiling v ff = ff := by
  rw [vcoFfNext, if_neg hceil, if_neg hmin]

theorem vcoAltNext_of_rising (h : v ≥ ceiling) (hff : ff = false) :
    vcoAltNext ceiling v ff alt = !alt := if_pos ⟨h, hff⟩

theorem vcoAltNext_of_set (hff : ff = true) : vcoAltNext ceiling v ff alt = alt :=
  if_neg fun ⟨_, hclear⟩ => Bool.noConfusion (hff.symm.trans hclear)

theorem vcoAltNext_of_below (h : ¬ v ≥ ceiling) : vcoAltNext ceiling v ff alt = alt :=
  if_neg fun ⟨hge, _⟩ => h hge

end Comparators

section Moves

variable (c : Config) (p : Params) (st : Steps) (k : CircuitState)

/-! ### The pairs (register, effective voltage) (rules R141, R143, R146, R151) -/

theorem osMove_fst_eq : (osMove c p st k).1 =
    if p.osOverride = false then
      (if k.osRun = true then clamp (k.osV + st.osChg) c.os.min c.os.max
       else clamp (k.osV - st.osDis) c.os.min c.os.max)
    else k.osV :=
  withOverride_fst_eq _ _ _ _

theorem osMove_snd_eq : (osMove c p st k).2 =
    if p.osOverride = false then (osMove c p st k).1 else p.osExtV :=
  withOverride_snd_eq _ _ _ _

theorem slfMove_fst_eq : (slfMove c p st k).1 =
    if p.slfOverride = false then
      (if k.slfFf = false then clamp (k.slfV + st.slfChg) c.slf.min c.slf.max
       else clamp (k.slfV - st.slfDis) c.slf.min c.slf.max)
    else k.slfV := by
  rw [slfMove, withOverride_fst_eq, moveCapacitor_not]

theorem slfMove_snd_eq : (slfMove c p st k).2 =
    if p.slfOverride = false then (slfMove c p st k).1 else p.slfExtV :=
  withOverride_snd_eq _ _ _ _

theorem vcoMove_fst_eq (ceiling : Voltage) : (vcoMove c p st ceiling k).1 =
    if p.vcoOverride = false then vcoUpdated c st ceiling k else k.vcoV :=
  withOverride_fst_eq _ _ _ _

theorem vcoMove_snd_eq (ceiling : Voltage) : (vcoMove c p st ceiling k).2 =
    if p.vcoOverride = false then (vcoMove c p st ceiling k).1 else p.vcoExtV :=
  withOverride_snd_eq _ _ _ _

/-! ### What a sub-step leaves in the oscillators' fields (45_update_scheduler.md rule R223)

Each field is written by one stage, and no earlier stage writes what that stage reads, but for the
VCO's ceiling, which is of this sub-step's SLF. -/

/-- The ceiling of a sub-step, from the effective voltage its stage 2 gives (rule R150). -/
def substepCeiling (c : Config) (p : Params) (st : Steps) (k : CircuitState) : Voltage :=
  vcoCeiling c p (slfMove c p st k).2

variable (sr : ℕ+) (f : ℤ)

@[simp] theorem substep_osV : (substep c p sr st f k).1.osV = (osMove c p st k).1 := rfl

@[simp] theorem substep_osRun :
    (substep c p sr st f k).1.osRun = osRunNext c (osMove c p st k).2 k.osRun := rfl

@[simp] theorem substep_slfV : (substep c p sr st f k).1.slfV = (slfMove c p st k).1 := rfl

@[simp] theorem substep_slfFf :
    (substep c p sr st f k).1.slfFf = slfFfNext c (slfMove c p st k).2 k.slfFf := rfl

@[simp] theorem substep_vcoV :
    (substep c p sr st f k).1.vcoV = (vcoMove c p st (substepCeiling c p st k) k).1 := rfl

@[simp] theorem substep_vcoFf :
    (substep c p sr st f k).1.vcoFf = vcoFfNext c (substepCeiling c p st k)
      (vcoMove c p st (substepCeiling c p st k) k).2 k.vcoFf := rfl

@[simp] theorem substep_vcoAlt :
    (substep c p sr st f k).1.vcoAlt = vcoAltNext (substepCeiling c p st k)
      (vcoMove c p st (substepCeiling c p st k) k).2 k.vcoFf k.vcoAlt := rfl

/-- The auxiliary value is `vco_eff` (45_update_scheduler.md rule R225). -/
@[simp] theorem substep_aux :
    (substep c p sr st f k).2.2 = (vcoMove c p st (substepCeiling c p st k) k).2 := rfl

/-- The ceiling from the SLF's register as the sub-step leaves it, or from its external voltage. -/
theorem substepCeiling_eq : substepCeiling c p st k =
    if p.vcoMode = .internal then
      (if p.slfOverride = false then (substep c p sr st f k).1.slfV else p.slfExtV) + c.vcoOffset
    else c.vcoOffset := by
  rw [substepCeiling, vcoCeiling_eq, slfMove_snd_eq, substep_slfV]

end Moves

/-! ### The three oscillators -/

/-- Settles O23: stage 1's movement, then its MAX test on the effective voltage. -/
theorem oneShotSubstep : Obligations.OneShotSubstep := by
  unfold Obligations.OneShotSubstep
  rintro c p sr st f k _ rfl
  refine ⟨osMove_fst_eq c p st k, fun osEff heff => ?_⟩
  obtain rfl : osEff = (osMove c p st k).2 := heff.trans (osMove_snd_eq c p st k).symm
  rw [substep_osRun]
  exact ⟨osRunNext_of_ge_max, osRunNext_of_not_ge_max⟩

/-- Settles O24: stage 2's movement, then the three cases of its flip-flop. -/
theorem slfSubstep : Obligations.SlfSubstep := by
  unfold Obligations.SlfSubstep
  rintro c p sr st f k _ rfl
  refine ⟨slfMove_fst_eq c p st k, fun slfEff heff => ?_⟩
  obtain rfl : slfEff = (slfMove c p st k).2 := heff.trans (slfMove_snd_eq c p st k).symm
  rw [substep_slfFf]
  exact ⟨slfFfNext_of_ge_max, fun ⟨hmax, hmin⟩ => slfFfNext_of_le_min hmax hmin,
    fun ⟨hmax, hmin⟩ => slfFfNext_of_between hmax hmin⟩

/-- Settles O25: the ceiling and the effective voltage are stage 3's, then the three cases of the
flip-flop with the toggle's. -/
theorem vcoSubstep : Obligations.VcoSubstep := by
  unfold Obligations.VcoSubstep
  rintro c p sr st f k _ rfl ceiling hceiling
  obtain rfl : ceiling = substepCeiling c p st k :=
    hceiling.trans (substepCeiling_eq c p st k sr f).symm
  refine ⟨vcoMove_fst_eq c p st k _, fun vcoEff heff => ?_⟩
  obtain rfl : vcoEff = (vcoMove c p st (substepCeiling c p st k) k).2 :=
    heff.trans (vcoMove_snd_eq c p st k _).symm
  rw [substep_vcoFf, substep_vcoAlt]
  refine ⟨fun hceil => ⟨vcoFfNext_of_ge_ceiling hceil, vcoAltNext_of_rising hceil,
    vcoAltNext_of_set⟩, ?_, ?_, substep_aux c p st k sr f⟩
  · rintro ⟨hceil, hmin⟩
    exact ⟨vcoFfNext_of_le_min hceil hmin, vcoAltNext_of_below hceil⟩
  · rintro ⟨hceil, hmin⟩
    exact ⟨vcoFfNext_of_between hceil hmin, vcoAltNext_of_below hceil⟩

end Sys2Proof.Machine
end

section
/-! PROOFS. The Noise Generator (42_noise.md): one noise clock bit by bit, the generation frequency, the
loop of the noise clock counter, and the fields of the CircuitState that stage 4 writes. -/

namespace Sys2Proof.Machine

/-! ### The noise clock (rules R171, R172) -/

section Clock

variable {r : NoiseReg}

/-- The mask of the model's zero test selects rule R171's zero-test bits. -/
theorem and_zeroTestMask_eq_zero_iff :
    r &&& 0x1000001F#31 = 0#31 ↔ ∀ i ∈ [0, 1, 2, 3, 4, 28], r.getLsbD i = false := by
  have hmask : ∀ i < 31, (0x1000001F#31).getLsbD i = decide (i ∈ [0, 1, 2, 3, 4, 28]) := by decide
  have htested : ∀ i ∈ [0, 1, 2, 3, 4, 28], i < 31 := by decide
  rw [BitVec.eq_of_getLsbD_eq_iff]
  constructor
  · intro h i hi
    simpa [hmask i (htested i hi), hi] using h i (htested i hi)
  · intro h i hi
    by_cases hmem : i ∈ [0, 1, 2, 3, 4, 28]
    · simp [h i hmem]
    · simp [hmask i hi, hmem]

theorem newBit_forced (h : r &&& 0x1000001F#31 = 0#31) : newBit r = true := if_pos h

theorem newBit_of_taps (h : r &&& 0x1000001F#31 ≠ 0#31) :
    newBit r = Bool.xor (r.getLsbD 28) (r.getLsbD 0) := if_neg h

theorem noiseClock_getLsbD_of_lt {i : ℕ} (h : i < 30) :
    (noiseClock r).getLsbD i = r.getLsbD (i + 1) := by
  simp [noiseClock, h, Nat.add_comm 1 i]

theorem noiseClock_getLsbD_top : (noiseClock r).getLsbD 30 = newBit r := by
  simp [noiseClock]

/-- Settles O36: the shift, and the two cases of the new bit by the zero test on its bits. -/
theorem noiseClockBits : Obligations.NoiseClockBits := by
  unfold Obligations.NoiseClockBits
  refine fun r => ⟨fun i hi => noiseClock_getLsbD_of_lt hi, fun hzero => ?_, ?_⟩
  · rw [noiseClock_getLsbD_top, newBit_forced (and_zeroTestMask_eq_zero_iff.mpr hzero)]
  · rintro ⟨i, hi, hset⟩
    have hne : r &&& 0x1000001F#31 ≠ 0#31 := fun h =>
      Bool.noConfusion (hset.symm.trans (and_zeroTestMask_eq_zero_iff.mp h i hi))
    rw [noiseClock_getLsbD_top, newBit_of_taps hne]

end Clock

/-! ### The generation frequency (rule R174) -/

section Frequency

variable {c : Config} {p : Params}

theorem noiseFreq_of_mem_range
    (h : c.noiseRMin ≤ p.noiseClockRes.val ∧ p.noiseClockRes.val ≤ c.noiseRMax) :
    noiseFreq c p = ⌊(c.fNoise p.noiseClockRes).val⌋ := if_pos h

theorem noiseFreq_of_outside
    (h : p.noiseClockRes.val < c.noiseRMin ∨ c.noiseRMax < p.noiseClockRes.val) :
    noiseFreq c p = 0 :=
  if_neg fun ⟨hmin, hmax⟩ => h.elim hmin.not_gt hmax.not_gt

/-- The range starts above 0 (00_scope.md rule R14 (e)), so an unset resistance is outside it. -/
theorem noiseFreq_of_unset (h : p.noiseClockRes.val = 0) : noiseFreq c p = 0 :=
  noiseFreq_of_outside (.inl (h.trans_lt c.noiseRMin_pos))

/-- Fitted functions answer no negative value (00_scope.md rule R13), nor does their floor. -/
theorem noiseFreq_nonneg (c : Config) (p : Params) : 0 ≤ noiseFreq c p := by
  unfold noiseFreq
  split
  · exact Int.floor_nonneg.mpr (c.fNoise p.noiseClockRes).property
  · exact le_rfl

/-- Settles O37, by the range test; the floor and the other branch's 0 are both non-negative. -/
theorem noiseFrequency : Obligations.NoiseFrequency := by
  unfold Obligations.NoiseFrequency
  exact fun c p => ⟨noiseFreq_of_mem_range, noiseFreq_of_outside, noiseFreq_of_unset,
    noiseFreq_nonneg c p⟩

end Frequency

/-! ### The noise clock counter (rules R175, R176) -/

/-- The model's number of rounds takes the counter past the frequency. -/
theorem lt_add_noiseRounds_mul {sr : ℤ} (hsr : 0 < sr) (freq ncnt : ℤ) :
    freq < ncnt + noiseRounds freq sr ncnt * sr := by
  have hrounds : (freq - ncnt) / sr + 1 ≤ noiseRounds freq sr ncnt := Int.self_le_toNat _
  have hdiv : freq - ncnt < ((freq - ncnt) / sr + 1) * sr :=
    Int.lt_ediv_add_one_mul_self _ hsr
  have hmul := mul_le_mul_of_nonneg_right hrounds hsr.le
  linarith

/-- With fuel for enough rounds, the fuelled loop ends by the test of rule R175's `while`. -/
theorem noiseWhile_noiseLoop {freq sr : ℤ} {fuel : ℕ} {ncnt : ℤ} {rng : NoiseReg}
    (h : freq < ncnt + fuel * sr) :
    ∃ m, NoiseWhile freq sr (ncnt, rng) m (noiseLoop freq sr fuel (ncnt, rng)) := by
  induction fuel generalizing ncnt rng with
  | zero => exact ⟨0, .done (by simpa using h)⟩
  | succ fuel ih =>
    by_cases htest : ncnt ≤ freq
    · have hrest : freq < ncnt + sr + fuel * sr := by
        push_cast at h
        linarith
      obtain ⟨m, hm⟩ := ih (rng := noiseClock rng) hrest
      rw [noiseLoop, if_pos htest]
      exact ⟨m + 1, .clock htest hm⟩
    · rw [noiseLoop, if_neg htest]
      exact ⟨0, .done (not_le.mp htest)⟩

section Counter

variable (c : Config) {freq : ℤ} (sr : ℕ+) (ncnt : ℤ) (rng : NoiseReg)

/-- At a positive frequency the loop ends by its own test, then come the subtraction and the clamp. -/
theorem noiseCount_of_pos (h : 0 < freq) :
    ∃ m y, NoiseWhile freq ((sr : ℕ) : ℤ) (ncnt, rng) m y ∧
      noiseCount c freq sr ncnt rng = (min (y.1 - freq) ((c.noiseCountMax : ℕ) : ℤ), y.2) := by
  have hsr : (0 : ℤ) < ((sr : ℕ) : ℤ) := Nat.cast_pos.mpr sr.pos
  obtain ⟨m, hm⟩ := noiseWhile_noiseLoop (rng := rng) (lt_add_noiseRounds_mul hsr freq ncnt)
  exact ⟨m, _, hm, if_pos h⟩

theorem noiseCount_of_nonpos (h : freq ≤ 0) :
    noiseCount c freq sr ncnt rng = (min ncnt ((c.noiseCountMax : ℕ) : ℤ), rng) :=
  if_neg h.not_gt

end Counter

/-! ### The filter's comparator (rule R179) -/

section Comparator

variable {c : Config} {v : Voltage} {ff : Bool}

theorem fnoiseFfNext_of_ge_high (h : v ≥ c.nfThHigh) : fnoiseFfNext c v ff = false := if_pos h

theorem fnoiseFfNext_of_le_low (hhigh : ¬ v ≥ c.nfThHigh) (hlow : v ≤ c.nfThLow) :
    fnoiseFfNext c v ff = true := by
  rw [fnoiseFfNext, if_neg hhigh, if_pos hlow]

theorem fnoiseFfNext_of_between (hhigh : ¬ v ≥ c.nfThHigh) (hlow : ¬ v ≤ c.nfThLow) :
    fnoiseFfNext c v ff = ff := by
  rw [fnoiseFfNext, if_neg hhigh, if_neg hlow]

end Comparator

/-! ### What a sub-step leaves in stage 4's fields (45_update_scheduler.md rule R223)

No other stage writes them, and stage 4 reads no field that another stage writes. -/

section Substep

variable (c : Config) (p : Params) (sr : ℕ+) (st : Steps) (f : ℤ) (k : CircuitState)

@[simp] theorem substep_ncnt :
    (substep c p sr st f k).1.ncnt = (noiseCount c f sr k.ncnt k.rng).1 := rfl

@[simp] theorem substep_rng :
    (substep c p sr st f k).1.rng = (noiseCount c f sr k.ncnt k.rng).2 := rfl

/-- The capacitor's direction is `RNG[30]` as this sub-step's clocks leave it (rules R177, R178). -/
theorem substep_nfV : (substep c p sr st f k).1.nfV =
    if (substep c p sr st f k).1.rng.getLsbD 30 = true then clamp (k.nfV + st.nfChg) c.nf.min c.nf.max
    else clamp (k.nfV - st.nfDis) c.nf.min c.nf.max := rfl

/-- The comparator reads the capacitor this sub-step has moved. -/
theorem substep_fnoiseFf : (substep c p sr st f k).1.fnoiseFf =
    fnoiseFfNext c (substep c p sr st f k).1.nfV k.fnoiseFf := rfl

end Substep

/-- Settles O38: stage 4's counter and register are `noiseCount`'s, by the sign of the frequency. -/
theorem noiseCounterIsTheWhileLoop : Obligations.NoiseCounterIsTheWhileLoop := by
  unfold Obligations.NoiseCounterIsTheWhileLoop
  rintro c p sr st f k _ rfl
  rw [substep_ncnt, substep_rng]
  constructor
  · intro hpos
    obtain ⟨m, y, hloop, hcount⟩ := noiseCount_of_pos c sr k.ncnt k.rng hpos
    rw [hcount]
    exact ⟨m, y, hloop, rfl, rfl⟩
  · intro hnonpos
    rw [noiseCount_of_nonpos c sr k.ncnt k.rng hnonpos]
    exact ⟨rfl, rfl⟩

/-- Settles O26: stage 4's movement, then the three cases of its comparator. -/
theorem noiseFilterSubstep : Obligations.NoiseFilterSubstep := by
  unfold Obligations.NoiseFilterSubstep
  rintro c p sr st f k _ rfl
  rw [substep_fnoiseFf]
  exact ⟨substep_nfV c p sr st f k, fnoiseFfNext_of_ge_high,
    fun ⟨hhigh, hlow⟩ => fnoiseFfNext_of_le_low hhigh hlow,
    fun ⟨hhigh, hlow⟩ => fnoiseFfNext_of_between hhigh hlow⟩

end Sys2Proof.Machine
end

section
/-! PROOFS. The Envelope Generator (43_envelope.md): the direction as its four modes fix it, the
ramp and the snap, and the field of the CircuitState that stage 5 writes. -/

namespace Sys2Proof.Machine

/-! ### The direction (rule R190) -/

/-- Each of the four modes fixes the direction, so the four cases of the rule determine it. -/
theorem eq_envCharging {m : EnvMode} {vcoFf osRun vcoAlt charging : Bool}
    (hvco : m = .vco → charging = vcoFf) (hos : m = .oneShot → charging = osRun)
    (hmix : m = .mixerOnly → charging = true)
    (halt : m = .vcoAltPolarity → charging = (vcoFf && vcoAlt)) :
    charging = envCharging m vcoFf osRun vcoAlt := by
  cases m with
  | vco => exact hvco rfl
  | oneShot => exact hos rfl
  | mixerOnly => exact hmix rfl
  | vcoAltPolarity => exact halt rfl

/-! ### The movement (rule R192) -/

section Movement

variable (c : Config) (adV : Voltage) {chg dis : ℚ}

theorem envMove_attack_ramp (h : 0 < chg) :
    envMove c true adV chg dis = clamp (adV + chg) c.ad.min c.ad.max := if_pos h

theorem envMove_attack_snap (h : ¬ 0 < chg) : envMove c true adV chg dis = c.ad.max := if_neg h

theorem envMove_decay_ramp (h : 0 < dis) :
    envMove c false adV chg dis = clamp (adV - dis) c.ad.min c.ad.max := if_pos h

theorem envMove_decay_snap (h : ¬ 0 < dis) : envMove c false adV chg dis = c.ad.min := if_neg h

end Movement

/-! ### What a sub-step leaves in `AD_V` (45_update_scheduler.md rule R223) -/

/-- No stage before the fifth writes `AD_V`, and no stage after the third writes a flip-flop that
the direction reads: it is of the flip-flops the sub-step leaves. -/
theorem substep_adV (c : Config) (p : Params) (sr : ℕ+) (st : Steps) (f : ℤ) (k : CircuitState) :
    (substep c p sr st f k).1.adV =
      envMove c (envCharging p.envMode (substep c p sr st f k).1.vcoFf
        (substep c p sr st f k).1.osRun (substep c p sr st f k).1.vcoAlt) k.adV st.adChg
        st.adDis := rfl

/-- Settles O27: the direction is the model's, then the ramp or the snap of its step. -/
theorem envelopeSubstep : Obligations.EnvelopeSubstep := by
  unfold Obligations.EnvelopeSubstep
  rintro c p sr st f k _ rfl charging hvco hos hmix halt
  rw [substep_adV, ← eq_envCharging hvco hos hmix halt]
  cases charging with
  | true =>
    rw [if_pos rfl]
    split
    next hchg => exact envMove_attack_ramp c k.adV hchg
    next hchg => exact envMove_attack_snap c k.adV hchg
  | false =>
    rw [if_neg Bool.false_ne_true]
    split
    next hdis => exact envMove_decay_ramp c k.adV hdis
    next hdis => exact envMove_decay_snap c k.adV hdis

end Sys2Proof.Machine
end

section
/-! PROOFS. The Mixer and Output Stage (44_mixer_output.md): the mixer's bit code by code and in closed
form, the gate, the table index, the one-sided clips, and the sample a sub-step answers. -/

namespace Sys2Proof.Machine

/-! ### The mixer's bit (rules R201, R202) -/

section Mixer

variable (v s n : Bool)

@[simp] theorem mixerBit_inhibit : mixerBit 0#3 v s n = false := rfl
@[simp] theorem mixerBit_vco : mixerBit 1#3 v s n = v := rfl
@[simp] theorem mixerBit_slf : mixerBit 2#3 v s n = s := rfl
@[simp] theorem mixerBit_vco_slf : mixerBit 3#3 v s n = (v && s) := rfl
@[simp] theorem mixerBit_noise : mixerBit 4#3 v s n = n := rfl
@[simp] theorem mixerBit_vco_noise : mixerBit 5#3 v s n = (v && n) := rfl
@[simp] theorem mixerBit_slf_noise : mixerBit 6#3 v s n = (s && n) := rfl
@[simp] theorem mixerBit_vco_slf_noise : mixerBit 7#3 v s n = (v && s && n) := rfl

/-- The codes that select at least one source. -/
theorem mixerMode_cases {mode : BitVec 3} (h : mode ≠ 0#3) :
    mode = 1#3 ∨ mode = 2#3 ∨ mode = 3#3 ∨ mode = 4#3 ∨ mode = 5#3 ∨ mode = 6#3 ∨ mode = 7#3 := by
  bv_omega

/-- Code by code, by the table. Code 0 is left out: its AND is empty, and the table gives 0 there. -/
theorem mixerBit_of_ne_zero {mode : BitVec 3} (h : mode ≠ 0#3) : mixerBit mode v s n =
    ((!mode.getLsbD 0 || v) && (!mode.getLsbD 1 || s) && (!mode.getLsbD 2 || n)) := by
  obtain rfl | rfl | rfl | rfl | rfl | rfl | rfl := mixerMode_cases h <;> simp

end Mixer

/-- Settles O29: the table code by code, then the closed form of the codes other than 0. -/
theorem mixerTruthTable : Obligations.MixerTruthTable := by
  unfold Obligations.MixerTruthTable
  intro v s n
  exact ⟨mixerBit_inhibit v s n, mixerBit_vco v s n, mixerBit_slf v s n, mixerBit_vco_slf v s n,
    mixerBit_noise v s n, mixerBit_vco_noise v s n, mixerBit_slf_noise v s n,
    mixerBit_vco_slf_noise v s n, fun _ => mixerBit_of_ne_zero v s n⟩

/-! ### The gate and the table index (rules R203, R204) -/

theorem outputActive_iff {c : Config} {p : Params} {vcoEff : Voltage} :
    outputActive c p vcoEff = true ↔ p.enableN = false ∧ vcoEff ≤ c.vco.max := by
  simp [outputActive]

/-- The clamp keeps the floor from going negative, so making it an index changes nothing. -/
theorem gainIndex_val (adV : Voltage) :
    ((gainIndex adV).val : ℤ) = min (max ⌊adV * 10⌋ 0) 44 :=
  Int.toNat_of_nonneg (le_min (le_max_right _ _) (by decide))

/-! ### The output voltage (rules R205, R206) -/

section Voltage

variable (c : Config) (idx : Fin 45)

theorem activeVout_positive :
    activeVout c true idx = min (c.outCenter + c.peakGain * c.posGain.get idx) c.outClipHigh := rfl

theorem activeVout_negative :
    activeVout c false idx = max (c.outCenter + c.peakGain * c.negGain.get idx) c.outClipLow := rfl

/-- Each branch looks its own table up and is clipped on its own side. -/
theorem activeVout_eq (bit : Bool) : activeVout c bit idx =
    if bit = true then min (c.outCenter + c.peakGain * c.posGain.get idx) c.outClipHigh
    else max (c.outCenter + c.peakGain * c.negGain.get idx) c.outClipLow := by
  cases bit with
  | true => exact activeVout_positive c idx
  | false => exact activeVout_negative c idx

theorem outputVoltage_active (bit : Bool) : outputVoltage c true bit idx = activeVout c bit idx := rfl

theorem outputVoltage_inactive (bit : Bool) : outputVoltage c false bit idx = c.outCenter := rfl

/-- The gate as a condition on the store and the VCO's effective voltage. -/
theorem outputVoltage_outputActive (p : Params) (vcoEff : Voltage) (bit : Bool) :
    outputVoltage c (outputActive c p vcoEff) bit idx =
      if p.enableN = false ∧ vcoEff ≤ c.vco.max then activeVout c bit idx else c.outCenter := by
  split
  next hopen => rw [outputActive_iff.mpr hopen, outputVoltage_active]
  next hshut =>
    rw [Bool.eq_false_iff.mpr (mt outputActive_iff.mp hshut), outputVoltage_inactive]

end Voltage

/-! ### The sample (rules R208, R209) -/

theorem sampleOf_eq (c : Config) (vout : Voltage) : sampleOf c vout =
    trunc (((vout - c.outClipLow) / (c.outCenter - c.outClipLow) - 1) *
      ((c.fullScale : ℕ) : ℚ)) := rfl

/-- Stage 6 is the last: it reads the CircuitState the sub-step leaves, and `vco_eff`, which the
sub-step answers as the auxiliary value (45_update_scheduler.md rules R223, R225). -/
theorem substep_sample (c : Config) (p : Params) (sr : ℕ+) (st : Steps) (f : ℤ) (k : CircuitState) :
    (substep c p sr st f k).2.1 =
      outputStage c p (substep c p sr st f k).2.2 (substep c p sr st f k).1 := rfl

/-- Settles O28: the index is stage 6's, and so is the output voltage, whose sample is answered. -/
theorem outputSubstep : Obligations.OutputSubstep := by
  unfold Obligations.OutputSubstep
  intro c p sr st f k t sample aux hsub
  have hsample : sample = outputStage c p aux t := by
    simpa only [hsub] using substep_sample c p sr st f k
  have hvout := outputVoltage_outputActive c (gainIndex t.adV) p aux
    (mixerBit p.mixer t.vcoFf t.slfFf t.fnoiseFf)
  rw [activeVout_eq] at hvout
  refine ⟨gainIndex t.adV, gainIndex_val t.adV, _, hvout, ?_⟩
  rw [hsample, outputStage, sampleOf_eq]

end Sys2Proof.Machine
end

section
/-! PROOFS. The UPDATE command (45_update_scheduler.md): the last sub-step gives the CircuitState and
the response, and an oscillator's register under override is the same after any number of sub-steps. -/

namespace Sys2Proof.Machine

/-! ### The last sub-step (rules R220, R224) -/

/-- An UPDATE answers what its last sub-step answers, from where the `N_SUB - 1` before it lead. -/
theorem runUpdate_eq_substep (c : Config) (p : Params) (sr : ℕ+) (k : CircuitState) :
    runUpdate c p sr k = substep c p sr (computeSteps c p sr) (noiseFreq c p)
      ((nextCircuit c p sr)^[(c.nSub : ℕ) - 1] k) :=
  substeps_eq c p sr (computeSteps c p sr) (noiseFreq c p) c.nSub.natPred k

/-- UPDATE completes in every state, and its count is ignored (rule R226). -/
theorem exec_update (n : ℕ) (s : State) : exec (.update n) s = .next (s.updated Config.cfg) := rfl

theorem lineOf_update (n : ℕ) : lineOf (.update n) = "update " ++ toString n := rfl

/-- Settles O22: the CircuitState by the iteration of the sub-step, the response by the last one. -/
theorem updateRunsNSubSubsteps : Obligations.UpdateRunsNSubSubsteps := by
  unfold Obligations.UpdateRunsNSubSubsteps
  refine ⟨decode_update, fun n s => ⟨lineOf_update n, s.updated Config.cfg, exec_update n s, ?_,
    rfl, ?_, rfl, rfl, rfl, fun m => exec_update m s⟩⟩
  · exact runUpdate_circuit Config.cfg s.params s.sampleRate s.circuit
  · exact congrArg Prod.snd (runUpdate_eq_substep Config.cfg s.params s.sampleRate s.circuit)

/-! ### The override (41_oscillators.md rule R141) -/

section Override

variable (c : Config) {p : Params} (sr : ℕ+) (k : CircuitState)

/-- What no sub-step changes, an UPDATE does not change. -/
theorem runUpdate_unchanged {α : Type} (g : CircuitState → α)
    (hsub : ∀ t, g (nextCircuit c p sr t) = g t) : g (runUpdate c p sr k).1 = g k :=
  runUpdate_keeps (P := fun t => g t = g k) (fun t ht => (hsub t).trans ht) rfl

theorem runUpdate_osV_of_override (h : p.osOverride = true) :
    (runUpdate c p sr k).1.osV = k.osV :=
  runUpdate_unchanged c sr k CircuitState.osV fun t =>
    (osMove_fst_eq c p _ t).trans (if_neg (ne_false_of_eq_true h))

theorem runUpdate_slfV_of_override (h : p.slfOverride = true) :
    (runUpdate c p sr k).1.slfV = k.slfV :=
  runUpdate_unchanged c sr k CircuitState.slfV fun t =>
    (slfMove_fst_eq c p _ t).trans (if_neg (ne_false_of_eq_true h))

theorem runUpdate_vcoV_of_override (h : p.vcoOverride = true) :
    (runUpdate c p sr k).1.vcoV = k.vcoV :=
  runUpdate_unchanged c sr k CircuitState.vcoV fun t =>
    (vcoMove_fst_eq c p _ t _).trans (if_neg (ne_false_of_eq_true h))

/-- The auxiliary value is the last sub-step's `vco_eff` (rule R225): the register that sub-step, and
so the UPDATE, leaves, or the external voltage under override. -/
theorem runUpdate_aux : (runUpdate c p sr k).2.2 =
    if p.vcoOverride = false then (runUpdate c p sr k).1.vcoV else p.vcoExtV := by
  rw [runUpdate_eq_substep, substep_aux, substep_vcoV]
  exact vcoMove_snd_eq c p _ _ _

end Override

/-- Settles O51: each overridden register by the sub-step that keeps it, the auxiliary value by the
two cases of `vco_eff`. -/
theorem overrideFreezesTheRegister : Obligations.OverrideFreezesTheRegister := by
  unfold Obligations.OverrideFreezesTheRegister
  intro n s
  have haux := runUpdate_aux Config.cfg (p := s.params) s.sampleRate s.circuit
  refine ⟨s.updated Config.cfg, exec_update n s, runUpdate_osV_of_override _ _ _,
    runUpdate_slfV_of_override _ _ _, fun hon => ⟨runUpdate_vcoV_of_override _ _ _ hon, ?_⟩,
    fun hoff => haux.trans (if_pos hoff)⟩
  exact haux.trans (if_neg (ne_false_of_eq_true hon))

end Sys2Proof.Machine
end

section
/-! PROOFS. The control commands NOP, INIT, TRIG and SETSR (46_commands_control.md): their decoding, the
state each leaves, and that no command but TRIG raises `OS_RUN`. -/

namespace Sys2Proof.Machine

open Sys2Proof.Laws.OpcodeTable (decode_formatZN)

/-! ### Format Z: any payload (30_encoding.md rules R83, R84) -/

section Decoding

variable (c : Config) (d : Payload c)

theorem decode_nop : decode c ⟨0x00#8, d⟩ = .ok .nop := decode_formatZN (by decide) rfl

theorem decode_init : decode c ⟨0x01#8, d⟩ = .ok .init := decode_formatZN (by decide) rfl

theorem decode_trig : decode c ⟨0x02#8, d⟩ = .ok .trig := decode_formatZN (by decide) rfl

end Decoding

variable (s : State)

/-! ### TRIG (rule R244) -/

/-- The state TRIG leaves. -/
def State.triggered : State := s.setCircuit { s.circuit with osRun := true }

theorem exec_trig : exec .trig s = .next s.triggered := rfl

@[simp] theorem State.triggered_circuit :
    s.triggered.circuit = { s.circuit with osRun := true } := rfl

/-- A pulse that runs is not triggered anew. -/
theorem State.triggered_of_running {s : State} (h : s.circuit.osRun = true) : s.triggered = s := by
  rw [State.triggered, ← h]
  rfl

theorem State.triggered_triggered : s.triggered.triggered = s.triggered :=
  State.triggered_of_running rfl

/-- The MAX test can only clear `OS_RUN` (41_oscillators.md rule R144). -/
theorem osRunNext_false (c : Config) (v : Voltage) : osRunNext c v false = false := ite_self false

/-- An UPDATE raises `OS_RUN` in none of its sub-steps. -/
theorem runUpdate_osRun_of_false {c : Config} {p : Params} {sr : ℕ+} {k : CircuitState}
    (h : k.osRun = false) : (runUpdate c p sr k).1.osRun = false := by
  refine runUpdate_keeps (P := fun k => k.osRun = false) (fun k hk => ?_) h
  rw [nextCircuit, substep_osRun, hk, osRunNext_false]

/-- INIT clears `OS_RUN`, an UPDATE cannot raise it, the other commands do not write it. -/
theorem exec_osRun_of_ne_trig {i : Instr} {s t : State} (h : exec i s = .next t) (hi : i ≠ .trig)
    (hs : s.circuit.osRun = false) : t.circuit.osRun = false := by
  obtain ⟨-, rfl⟩ | ⟨htrig, -⟩ | ⟨n, -, rfl⟩ | ⟨-, sr, p, rfl⟩ := exec_cases h
  · rfl
  · exact absurd htrig hi
  · exact runUpdate_osRun_of_false hs
  · exact hs

/-- Settles O15: TRIG by the state it leaves, the other commands by their effect on `OS_RUN`. -/
theorem trigSetsOnlyOsRun : Obligations.TrigSetsOnlyOsRun := by
  unfold Obligations.TrigSetsOnlyOsRun
  refine ⟨decode_trig, rfl, fun s => ?_, fun i s t h hs ht => ?_⟩
  · refine ⟨s.triggered, exec_trig s, rfl, s.triggered_circuit, rfl, rfl, rfl, rfl,
      State.triggered_of_running, ?_⟩
    rw [exec_trig, State.triggered_triggered]
  · by_contra hi
    have hfalse : t.circuit.osRun = false := exec_osRun_of_ne_trig h hi hs
    exact Bool.false_ne_true (hfalse.symm.trans ht)

/-! ### NOP (rule R240) -/

theorem exec_nop : exec .nop s = .next s := rfl

/-- Settles O13: the decoding, the written form and the execution, each by its own equation. -/
theorem nopChangesNothing : Obligations.NopChangesNothing := by
  unfold Obligations.NopChangesNothing
  exact ⟨decode_nop, rfl, exec_nop⟩

/-! ### INIT (rule R242) -/

theorem exec_init : exec .init s = .next (s.initialised Config.cfg) := rfl

/-- INIT's access to the Parameter Store is one write of the slot `VCO_MODE`. -/
theorem State.initialised_params_eq_write (c : Config) :
    (s.initialised c).params = s.params.write .vcoMode (.vcoMode .internal) := rfl

theorem State.initialised_read_other (c : Config) {slot : Slot} (h : slot ≠ .vcoMode) :
    (s.initialised c).params.read slot = s.params.read slot := by
  rw [State.initialised_params_eq_write, Params.read_write_other h]

theorem State.initialised_initialised (c : Config) :
    (s.initialised c).initialised c = s.initialised c := rfl

/-- Settles O14: the CircuitState is the power-on one, whose fields are the listed values; the slots by
the write of `VCO_MODE`. -/
theorem initReinitialisesTheCircuit : Obligations.InitReinitialisesTheCircuit := by
  unfold Obligations.InitReinitialisesTheCircuit
  refine ⟨decode_init, rfl, fun s => ⟨s.initialised Config.cfg, exec_init s, ?_⟩⟩
  rw [s.initialised_circuit]
  refine ⟨rfl, rfl, rfl, rfl, rfl, rfl, rfl, rfl, rfl, rfl, rfl, rfl, State.reset_circuit.symm, rfl,
    fun slot hne => s.initialised_read_other Config.cfg hne, rfl, rfl, rfl, ?_⟩
  rw [exec_init, State.initialised_initialised]

/-! ### SETSR (rules R246, R247) -/

theorem exec_setsr_of_pos {n : ℕ} (h : 0 < n) :
    exec (.setsr n) s = .next (s.setSampleRate ⟨n, h⟩) := dif_pos h

theorem exec_setsr_zero : exec (.setsr 0) s = .next s := rfl

theorem lineOf_setsr (n : ℕ) : lineOf (.setsr n) = "setsr " ++ toString n := rfl

/-- Settles O16: a positive rate is stored whole, the frame is that of the one write; 0 is ignored. -/
theorem setsrStoresAPositiveRate : Obligations.SetsrStoresAPositiveRate := by
  unfold Obligations.SetsrStoresAPositiveRate
  refine ⟨decode_setsr, fun n s => ⟨lineOf_setsr n, fun hpos => ?_, ?_⟩⟩
  · exact ⟨s.setSampleRate ⟨n, hpos⟩, exec_setsr_of_pos s hpos, rfl, rfl, rfl, rfl, rfl⟩
  · rintro rfl
    exact exec_setsr_zero s

end Sys2Proof.Machine
end

section
/-! PROOFS. The decoder in the other direction (30_encoding.md sections 2 to 5): each payload class
reads back what the encoder writes, and every opcode is a row of the table or reserved. -/

namespace Sys2Proof

variable {c : Config}

/-! ### Each payload class reads back what the encoder writes (rules R85 to R87) -/

theorem Config.decU_wordU? {v : Component} (h : c.representableU v = true) :
    c.decU ((c.wordU? v).getD 0) = v := by
  obtain ⟨d, hd⟩ := Option.isSome_iff_exists.mp h
  have hfound : (c.decU d == v) = true := List.find?_some (p := fun d => c.decU d == v) hd
  rw [hd, Option.getD_some]
  exact eq_of_beq hfound

theorem Config.decS_wordS? {v : Voltage} (h : c.representableS v = true) :
    c.decS ((c.wordS? v).getD 0) = v := by
  obtain ⟨d, hd⟩ := Option.isSome_iff_exists.mp h
  have hfound : (c.decS d == v) = true := List.find?_some (p := fun d => c.decS d == v) hd
  rw [hd, Option.getD_some]
  exact eq_of_beq hfound

theorem Config.representableU_decU (d : Payload c) : c.representableU (c.decU d) = true :=
  List.find?_isSome.mpr ⟨d, Config.mem_words d, beq_self_eq_true _⟩

theorem Config.representableS_decS (d : Payload c) : c.representableS (c.decS d) = true :=
  List.find?_isSome.mpr ⟨d, Config.mem_words d, beq_self_eq_true _⟩

theorem Config.decN_ofNat {n : ℕ} (h : n < 2 ^ c.payW) : c.decN (BitVec.ofNat c.payW n) = n := by
  rw [Config.decN, BitVec.toNat_ofNat, Nat.mod_eq_of_lt h]

/-- A payload has at least three bits, so the low bits of a widened field are the field. -/
theorem Config.extractLsb'_setWidth {n : ℕ} (hn : n ≤ 3) (b : BitVec n) :
    (b.setWidth c.payW).extractLsb' 0 n = b := by
  have hwidth : n ≤ c.payW := hn.trans c.three_le_payW
  rw [← BitVec.setWidth_eq_extractLsb' hwidth, BitVec.setWidth_setWidth_of_le _ hwidth,
    BitVec.setWidth_eq]

theorem Config.decB3_setWidth (b : BitVec 3) : c.decB3 (b.setWidth c.payW) = b :=
  Config.extractLsb'_setWidth le_rfl b

theorem Config.decB2_setWidth (b : BitVec 2) : c.decB2 (b.setWidth c.payW) = b :=
  Config.extractLsb'_setWidth (by decide) b

theorem Config.decB1_setWidth (b : Bool) : c.decB1 ((BitVec.ofBool b).setWidth c.payW) = b := by
  have hpos : 0 < c.payW := Nat.lt_of_lt_of_le (by decide) c.three_le_payW
  simp [Config.decB1, hpos]

/-- Some payload word stands for the value; the mode classes are as wide as their fields. -/
def SlotValue.representable (c : Config) : SlotValue → Bool
  | .unsigned r => c.representableU r
  | .signed v => c.representableS v
  | .bits3 _ | .env _ | .vcoMode _ | .bit _ => true

theorem EnvMode.ofBits_toBits (m : EnvMode) : EnvMode.ofBits m.toBits = m := by
  cases m <;> rfl

theorem VcoMode.ofBit_toBit (m : VcoMode) : VcoMode.ofBit m.toBit = m := by
  cases m <;> rfl

end Sys2Proof

namespace Sys2Proof.Machine

open Sys2Proof.Laws.OpcodeTable (decode_formatP)

variable {c : Config} {i : Instr} {slot : Slot} {v : SlotValue}

/-! ### Decoding what was encoded -/

/-- A slot and a value of its class name one command. -/
theorem eq_of_slotWrite_eq {j : Instr} {x : Slot × SlotValue} (hi : slotWrite? i = some x)
    (hj : slotWrite? j = some x) : i = j := by
  cases i <;> cases hi <;> cases j <;> cases hj <;> rfl

/-- A SETP's payload has, in its slot's class, the value the command carries. -/
theorem payloadValue_payload (hw : slotWrite? i = some (slot, v)) (h : i.wellFormed c = true) :
    payloadValue c (i.payload c) slot = v := by
  cases i with
  | nop | init | trig | setsr _ | update _ => cases hw
  | setpOsRes r | setpOsCap r | setpSlfRes r | setpSlfCap r | setpVcoRes r | setpVcoCap r
  | setpNoiseClockRes r | setpNoiseFilterRes r | setpNoiseFilterCap r | setpAttackRes r
  | setpDecayRes r | setpAdCap r =>
    cases hw
    exact congrArg SlotValue.unsigned (Config.decU_wordU? h)
  | setpVcoVoltage x | setpPitchVoltage x | setpOsExtV x | setpSlfExtV x | setpVcoExtV x =>
    cases hw
    exact congrArg SlotValue.signed (Config.decS_wordS? h)
  | setpMixer b | setpExtEn b =>
    cases hw
    exact congrArg SlotValue.bits3 (Config.decB3_setWidth b)
  | setpEnvMode m =>
    cases hw
    exact congrArg SlotValue.env
      ((congrArg EnvMode.ofBits (Config.decB2_setWidth m.toBits)).trans (EnvMode.ofBits_toBits m))
  | setpVcoMode m =>
    cases hw
    exact congrArg SlotValue.vcoMode
      ((congrArg VcoMode.ofBit (Config.decB1_setWidth m.toBit)).trans (VcoMode.ofBit_toBit m))
  | setpEnableN b =>
    cases hw
    exact congrArg SlotValue.bit (Config.decB1_setWidth b)

/-- The opcode decodes to a SETP of the same slot, and the payload gives it the same value. -/
theorem decode_encode_setp (hw : slotWrite? i = some (slot, v)) (h : i.wellFormed c = true) :
    decode c (encode c i) = .ok i := by
  obtain ⟨j, hdec, hj⟩ := decode_setp c (i.payload c) slot
  rw [payloadValue_payload hw h] at hj
  have hop : i.opcode = BitVec.ofNat 8 (0x20 + (slotNumber slot).toNat) := by
    rw [← opcode_of_slotWrite hw, BitVec.ofNat_toNat, BitVec.setWidth_eq]
  rw [encode, hop, hdec, eq_of_slotWrite_eq hj hw]

/-- Settles O2: format Z as it stands, format N by its count's fitting the payload, format P by its
slot and its slot's class. -/
theorem decodeOfEncodeIsTheCommand : Obligations.DecodeOfEncodeIsTheCommand := by
  unfold Obligations.DecodeOfEncodeIsTheCommand
  intro c i h
  cases i with
  | nop => exact decode_nop c 0
  | init => exact decode_init c 0
  | trig => exact decode_trig c 0
  | setsr n =>
    have hn : (BitVec.ofNat c.payW n).toNat = n := Config.decN_ofNat (of_decide_eq_true h)
    exact (decode_setsr c (BitVec.ofNat c.payW n)).trans (by rw [hn])
  | update n =>
    have hn : (BitVec.ofNat c.payW n).toNat = n := Config.decN_ofNat (of_decide_eq_true h)
    exact (decode_update c (BitVec.ofNat c.payW n)).trans (by rw [hn])
  | _ => exact decode_encode_setp rfl h

/-! ### The opcode map (rules R83, R84, R91, R92) -/

/-- Format P is the 32 opcodes from 0x20 on. -/
theorem formatP_iff {op : Opcode} :
    op.extractLsb' 5 3 = 0b001#3 ↔ 0x20 ≤ op.toNat ∧ op.toNat ≤ 0x3F := by
  have hlt := op.isLt
  rw [← BitVec.toNat_inj]
  simp only [BitVec.extractLsb'_toNat, BitVec.toNat_ofNat, Nat.shiftRight_eq_div_pow]
  omega

theorem formatP_slot_toNat (op : Opcode) : (op.extractLsb' 0 5).toNat = op.toNat % 32 := by
  simp

/-- The slots in the order of their numbers. -/
def slotsInOrder : List Slot :=
  [.osRes, .osCap, .slfRes, .slfCap, .vcoRes, .vcoCap, .vcoVoltage, .pitchVoltage, .noiseClockRes,
    .noiseFilterRes, .noiseFilterCap, .attackRes, .decayRes, .adCap, .mixer, .envMode, .vcoMode,
    .enableN, .osExtV, .slfExtV, .vcoExtV, .extEn]

theorem exists_slotNumber_eq {n : ℕ} (h : n ≤ 0x15) : ∃ slot, (slotNumber slot).toNat = n := by
  have hall : ∀ m : Fin 22, ∃ slot ∈ slotsInOrder, (slotNumber slot).toNat = m := by decide
  obtain ⟨slot, -, hslot⟩ := hall ⟨n, by omega⟩
  exact ⟨slot, hslot⟩

/-- A SETP is well formed when some payload stands for its value. -/
theorem wellFormed_of_slotWrite (h : slotWrite? i = some (slot, v)) :
    i.wellFormed c = v.representable c := by
  cases i <;> cases h <;> rfl

/-- What a payload reads as in a slot's class has a payload. -/
theorem payloadValue_representable (c : Config) (d : Payload c) (slot : Slot) :
    (payloadValue c d slot).representable c = true := by
  cases slot with
  | osRes | osCap | slfRes | slfCap | vcoRes | vcoCap | noiseClockRes | noiseFilterRes
  | noiseFilterCap | attackRes | decayRes | adCap => exact Config.representableU_decU d
  | vcoVoltage | pitchVoltage | osExtV | slfExtV | vcoExtV => exact Config.representableS_decS d
  | mixer | extEn | envMode | vcoMode | enableN => rfl

/-- The opcodes that are rows of the table (rule R84). -/
def KnownOpcode (op : Opcode) : Prop :=
  op.toNat ≤ 0x04 ∨ (0x20 ≤ op.toNat ∧ op.toNat ≤ 0x35)

theorem control_opcode_cases {op : Opcode} (h : op.toNat ≤ 0x04) :
    op = 0x00#8 ∨ op = 0x01#8 ∨ op = 0x02#8 ∨ op = 0x03#8 ∨ op = 0x04#8 := by
  bv_omega

/-- Formats Z and N: a count is the payload itself, so it fits. -/
theorem decode_of_control_opcode {w : Command c} (h : w.op.toNat ≤ 0x04) :
    ∃ i, decode c w = .ok i ∧ i.wellFormed c = true ∧ i.opcode = w.op := by
  obtain ⟨op, d⟩ := w
  have hcount : decide (d.toNat < 2 ^ c.payW) = true := decide_eq_true d.isLt
  obtain rfl | rfl | rfl | rfl | rfl := control_opcode_cases h
  · exact ⟨_, decode_nop c d, rfl, rfl⟩
  · exact ⟨_, decode_init c d, rfl, rfl⟩
  · exact ⟨_, decode_trig c d, rfl, rfl⟩
  · exact ⟨_, decode_setsr c d, hcount, rfl⟩
  · exact ⟨_, decode_update c d, hcount, rfl⟩

/-- Format P: the opcode names one of the 22 slots. -/
theorem decode_of_slot_opcode {w : Command c} (hlo : 0x20 ≤ w.op.toNat) (hhi : w.op.toNat ≤ 0x35) :
    ∃ i, decode c w = .ok i ∧ i.wellFormed c = true ∧ i.opcode = w.op := by
  obtain ⟨slot, hslot⟩ := exists_slotNumber_eq (n := w.op.toNat - 0x20) (by omega)
  obtain ⟨i, hdec, hw⟩ := decode_setp c w.data slot
  have hnum : 0x20 + (slotNumber slot).toNat = w.op.toNat := by omega
  rw [hnum, BitVec.ofNat_toNat, BitVec.setWidth_eq] at hdec
  exact ⟨i, hdec, (wellFormed_of_slotWrite hw).trans (payloadValue_representable c w.data slot),
    BitVec.eq_of_toNat_eq ((opcode_of_slotWrite hw).trans hnum)⟩

theorem decode_of_known {w : Command c} (h : KnownOpcode w.op) :
    ∃ i, decode c w = .ok i ∧ i.wellFormed c = true ∧ i.opcode = w.op :=
  h.elim decode_of_control_opcode fun ⟨hlo, hhi⟩ => decode_of_slot_opcode hlo hhi

/-- Outside format P every opcode from 0x05 on is reserved (rule R91). -/
theorem decode_of_reserved_opcode {w : Command c}
    (h : (0x05 ≤ w.op.toNat ∧ w.op.toNat ≤ 0x1F) ∨ 0x40 ≤ w.op.toNat) :
    decode c w = .error (.reservedOpcode w.op) := by
  have hformat : ¬ w.op.extractLsb' 5 3 = 0b001#3 := fun hp => by
    have hrange := formatP_iff.mp hp
    omega
  rw [decode, if_neg hformat]
  unfold decodeControl
  split
  case h_6 => rfl
  all_goals omega

/-- The opcodes 0x36 to 0x3F name slots the Parameter Store does not have (rule R92). -/
theorem decode_of_reserved_slot {w : Command c} (hlo : 0x36 ≤ w.op.toNat)
    (hhi : w.op.toNat ≤ 0x3F) :
    decode c w = .error (.reservedSlot (BitVec.ofNat 5 w.op.toNat)) := by
  have hslot := formatP_slot_toNat w.op
  have hnum : w.op.extractLsb' 0 5 = BitVec.ofNat 5 w.op.toNat := BitVec.eq_of_toNat_eq (by simp)
  rw [decode, if_pos (formatP_iff.mpr ⟨by omega, hhi⟩), ← hnum]
  unfold decodeSetp
  split
  case h_23 => rfl
  all_goals omega

/-- Only rows of the table decode. -/
theorem knownOpcode_of_decode {w : Command c} (h : decode c w = .ok i) : KnownOpcode w.op := by
  by_contra hunknown
  unfold KnownOpcode at hunknown
  by_cases hslot : 0x36 ≤ w.op.toNat ∧ w.op.toNat ≤ 0x3F
  · obtain ⟨hlo, hhi⟩ := hslot
    rw [decode_of_reserved_slot hlo hhi] at h
    cases h
  · rw [decode_of_reserved_opcode (by omega)] at h
    cases h

/-- Settles O3: what decodes is a row of the table, and each row answers its own command. -/
theorem decodedCommandIsWellFormed : Obligations.DecodedCommandIsWellFormed := by
  unfold Obligations.DecodedCommandIsWellFormed
  intro c w i h
  obtain ⟨j, hdec, hj⟩ := decode_of_known (knownOpcode_of_decode h)
  obtain rfl : j = i := Except.ok.inj (hdec.symm.trans h)
  exact hj

/-- A step on a command that does not decode is refused by the decoder's error. -/
theorem step_of_decode_error {s : State} {w : Command Config.cfg} {rest : List PortInput}
    {e : DecodeError} (hin : s.inputs = .command w :: rest) (h : decode Config.cfg w = .error e) :
    step s = .refused (.reservedEncoding e) := by
  simp only [step, hin, h]

/-- Settles O4: the two reserved ranges by their errors, the rows of the table by their commands. -/
theorem reservedEncodingsAreRefused : Obligations.ReservedEncodingsAreRefused := by
  unfold Obligations.ReservedEncodingsAreRefused
  refine ⟨fun c w => ⟨decode_of_reserved_opcode,
    fun ⟨hlo, hhi⟩ => decode_of_reserved_slot hlo hhi, fun hknown => ?_⟩,
    fun s w rest e => step_of_decode_error⟩
  obtain ⟨i, hdec, -⟩ := decode_of_known hknown
  exact ⟨i, hdec⟩

/-- Settles O1: the eight words by their opcodes; the low bits of a class B3 payload as a remainder.
-/
theorem knownCommandWordsDecode : Obligations.KnownCommandWordsDecode := by
  unfold Obligations.KnownCommandWordsDecode
  intro c d
  have hmixer : c.decB3 d = BitVec.ofNat 3 d.toNat := by
    rw [Config.decB3_eq]
    exact BitVec.eq_of_toNat_eq (by simp)
  rw [← hmixer]
  exact ⟨decode_nop c d, decode_init c d, decode_trig c d, decode_setsr c d, decode_update c d,
    decode_formatP (by decide) rfl, decode_formatP (by decide) rfl, decode_formatP (by decide) rfl⟩

end Sys2Proof.Machine
end

section
/-! PROOFS. The noise counter and the noise register over a sub-step and an UPDATE (42_noise.md;
10_state.md section 3): the `while` loop's rounds and result, the counter's bounds, the register's
liveness. -/

namespace Sys2Proof.Machine

/-! ### The `while` loop of rule R175 -/

section Loop

variable {freq sr ncnt : ℤ} {rng : NoiseReg} {m m' : ℕ} {x y y' : ℤ × NoiseReg}

/-- The loop ends in one way only. -/
theorem NoiseWhile.unique (h : NoiseWhile freq sr x m y) (h' : NoiseWhile freq sr x m' y') :
    m' = m ∧ y' = y := by
  induction h generalizing m' y' with
  | done hend =>
    cases h' with
    | done => exact ⟨rfl, rfl⟩
    | clock hgo => exact absurd hend hgo.not_gt
  | clock hgo _ ih =>
    cases h' with
    | done hend => exact absurd hend hgo.not_gt
    | clock _ hrest =>
      obtain ⟨rfl, rfl⟩ := ih hrest
      exact ⟨rfl, rfl⟩

/-- Each round adds SAMPLE_RATE and clocks the register once. -/
theorem NoiseWhile.result (h : NoiseWhile freq sr x m y) :
    y = (x.1 + m * sr, noiseClock^[m] x.2) := by
  induction h with
  | done => simp
  | clock _ _ ih =>
    rw [ih, Function.iterate_succ_apply]
    push_cast
    exact Prod.ext (by ring) rfl

theorem NoiseWhile.lt_result (h : NoiseWhile freq sr x m y) : freq < y.1 := by
  induction h with
  | done hend => exact hend
  | clock _ _ ih => exact ih

/-- The last round found the counter at most at the frequency. -/
theorem NoiseWhile.result_le (h : NoiseWhile freq sr x m y) (hm : m ≠ 0) : y.1 ≤ freq + sr := by
  induction h with
  | done => exact absurd rfl hm
  | clock hgo hrest ih =>
    cases hrest with
    | done => linarith
    | clock => exact ih (Nat.succ_ne_zero _)

/-- A loop that finds the counter past the frequency makes no round. -/
theorem NoiseWhile.rounds_eq_zero (h : NoiseWhile freq sr x m y) (hx : freq < x.1) : m = 0 :=
  (NoiseWhile.unique (.done hx) h).1

/-- The loop adds SAMPLE_RATE at most as often as the frequency holds it, and once more. -/
theorem NoiseWhile.rounds_le (h : NoiseWhile freq sr x m y) (hsr : 0 < sr) (hfreq : 0 ≤ freq)
    (hx : 0 ≤ x.1) : (m : ℤ) ≤ freq / sr + 1 := by
  by_cases hm : m = 0
  · have hdiv : 0 ≤ freq / sr := Int.ediv_nonneg hfreq hsr.le
    omega
  · have hle := h.result_le hm
    rw [h.result] at hle
    have hround : ((m : ℤ) - 1) * sr ≤ freq := by linarith
    linarith [(Int.le_ediv_iff_mul_le hsr).mpr hround]

end Loop

/-! ### The counter after a sub-step (rules R175, R176; 10_state.md rule R35) -/

section Counter

variable (c : Config) (freq : ℤ) (sr : ℕ+) {ncnt : ℤ} (rng : NoiseReg)

/-- The clamp at `NOISE_COUNT_MAX` comes last. -/
theorem noiseCount_le_max (ncnt : ℤ) :
    (noiseCount c freq sr ncnt rng).1 ≤ ((c.noiseCountMax : ℕ) : ℤ) := by
  unfold noiseCount
  split <;> exact min_le_right _ _

theorem one_le_noiseCountMax : 1 ≤ ((c.noiseCountMax : ℕ) : ℤ) :=
  Nat.one_le_cast.mpr c.noiseCountMax.pos

/-- The loop leaves the counter past the frequency, so the subtraction leaves at least 1. -/
theorem one_le_noiseCount_of_pos (hfreq : 0 < freq) (ncnt : ℤ) :
    1 ≤ (noiseCount c freq sr ncnt rng).1 := by
  obtain ⟨m, y, hloop, hcount⟩ := noiseCount_of_pos c sr ncnt rng hfreq
  rw [hcount]
  have hlt := hloop.lt_result
  exact le_min (by omega) (one_le_noiseCountMax c)

theorem noiseCount_nonneg (h : 0 ≤ ncnt) : 0 ≤ (noiseCount c freq sr ncnt rng).1 := by
  rcases lt_or_ge 0 freq with hpos | hnonpos
  · exact zero_le_one.trans (one_le_noiseCount_of_pos c freq sr rng hpos ncnt)
  · rw [noiseCount_of_nonpos c sr ncnt rng hnonpos]
    exact le_min h (zero_le_one.trans (one_le_noiseCountMax c))

/-- Before the clamp the counter is what it was less the frequency, or at most SAMPLE_RATE, which
the last round added. -/
theorem noiseCount_le_max_before :
    (noiseCount c freq sr ncnt rng).1 ≤ max ncnt ((sr : ℕ) : ℤ) := by
  rcases lt_or_ge 0 freq with hpos | hnonpos
  · obtain ⟨m, y, hloop, hcount⟩ := noiseCount_of_pos c sr ncnt rng hpos
    rw [hcount]
    refine (min_le_left _ _).trans ?_
    rcases eq_or_ne m 0 with rfl | hm
    · have hy := congrArg Prod.fst hloop.result
      simp only [Nat.cast_zero, zero_mul, add_zero] at hy
      exact le_max_of_le_left (by omega)
    · have hle := hloop.result_le hm
      exact le_max_of_le_right (by omega)
  · rw [noiseCount_of_nonpos c sr ncnt rng hnonpos]
    exact (min_le_left _ _).trans (le_max_left _ _)

end Counter

/-- Settles O39: the counter's bounds by its clamp and by the loop's last round, the loop's own by
its result. -/
theorem noiseLoopBounds : Obligations.NoiseLoopBounds := by
  unfold Obligations.NoiseLoopBounds
  rintro c p sr st f k _ rfl hk
  rw [substep_ncnt, substep_rng]
  refine ⟨le_min (noiseCount_le_max_before c f sr k.rng) (noiseCount_le_max c f sr k.rng k.ncnt),
    fun hpos => ⟨one_le_noiseCount_of_pos c f sr k.rng hpos k.ncnt, ?_⟩⟩
  obtain ⟨m, y, hloop, hcount⟩ := noiseCount_of_pos c sr k.ncnt k.rng hpos
  obtain rfl := hloop.result
  rw [hcount]
  exact ⟨m, _, hloop, fun m' y' => hloop.unique,
    hloop.rounds_le (Nat.cast_pos.mpr sr.pos) hpos.le hk, hloop.rounds_eq_zero, rfl, rfl⟩

/-- Every sub-step from a counter `>= 0` leaves it in the bounds of rule R35. -/
theorem substep_counterBounded {c : Config} {p : Params} {sr : ℕ+} {st : Steps} {f : ℤ}
    {k : CircuitState} (hk : 0 ≤ k.ncnt) : (substep c p sr st f k).1.CounterBounded c :=
  ⟨noiseCount_nonneg c f sr k.rng hk, noiseCount_le_max c f sr k.rng k.ncnt⟩

theorem CircuitState.reset_counterBounded (c : Config) : (CircuitState.reset c).CounterBounded c :=
  ⟨le_rfl, zero_le_one.trans (one_le_noiseCountMax c)⟩

theorem step_counterBounded {s t : State} (hs : s.circuit.CounterBounded Config.cfg)
    (h : step s = .next t) : t.circuit.CounterBounded Config.cfg :=
  step_keeps_circuit (CircuitState.reset_counterBounded Config.cfg) (fun _ hk => hk)
    (fun _ _ _ ⟨hnonneg, _⟩ => substep_counterBounded hnonneg) hs h

/-- Settles O43: the sub-step by stage 4's counter, the step of the machine by the step induction.
-/
theorem noiseCounterBoundsAreKept : Obligations.NoiseCounterBoundsAreKept := by
  unfold Obligations.NoiseCounterBoundsAreKept
  exact ⟨fun _ _ _ _ _ _ => substep_counterBounded, fun _ _ => step_counterBounded⟩

/-! ### The register's liveness (rules R34, R36, R171) -/

/-- While only zeros are shifted in, the zeros fill the register from the top. -/
theorem noiseClock_iterate_zeros {r : NoiseReg} {j : ℕ}
    (h : ∀ k, 1 ≤ k → k ≤ j → rawBit (noiseClock^[k] r) = false) {i : ℕ} (hi : 31 ≤ i + j) :
    (noiseClock^[j] r).getLsbD i = false := by
  induction j generalizing i with
  | zero => exact BitVec.getLsbD_of_ge _ _ hi
  | succ j ih =>
    rcases lt_trichotomy i 30 with hlt | rfl | hgt
    · rw [Function.iterate_succ_apply', noiseClock_getLsbD_of_lt hlt]
      exact ih (fun k hk hkj => h k hk (hkj.trans j.le_succ)) (by omega)
    · exact h (j + 1) (by omega) le_rfl
    · exact BitVec.getLsbD_of_ge _ _ hgt

/-- The zero register shifts in a forced 1. -/
theorem rawBit_noiseClock_of_zeros {r : NoiseReg} (h : ∀ i, r.getLsbD i = false) :
    rawBit (noiseClock r) = true :=
  noiseClock_getLsbD_top.trans (newBit_forced (and_zeroTestMask_eq_zero_iff.mpr fun i _ => h i))

/-- Settles O40: if the first 31 clocks shift in zeros only, the register is 0, and the 32nd shifts
in a 1. -/
theorem noiseNeverStalls : Obligations.NoiseNeverStalls := by
  unfold Obligations.NoiseNeverStalls
  intro r
  by_cases hone : ∃ k, 1 ≤ k ∧ k ≤ 31 ∧ rawBit (noiseClock^[k] r) = true
  · obtain ⟨k, hk, hk31, hraw⟩ := hone
    exact ⟨k, hk, by omega, hraw⟩
  · have hzeros : ∀ k, 1 ≤ k → k ≤ 31 → rawBit (noiseClock^[k] r) = false := fun k hk hk31 =>
      Bool.eq_false_iff.mpr fun hraw => hone ⟨k, hk, hk31, hraw⟩
    refine ⟨32, by decide, le_rfl, ?_⟩
    rw [Function.iterate_succ_apply' noiseClock 31 r]
    exact rawBit_noiseClock_of_zeros fun i => noiseClock_iterate_zeros hzeros (Nat.le_add_left 31 i)

/-! ### The register's clocks (rules R170, R175, R269) -/

/-- A sub-step clocks the register some number of times. -/
theorem substep_rng_clocked (c : Config) (p : Params) (sr : ℕ+) (st : Steps) (f : ℤ)
    (k : CircuitState) : ∃ m, (substep c p sr st f k).1.rng = noiseClock^[m] k.rng := by
  rw [substep_rng]
  rcases lt_or_ge 0 f with hpos | hnonpos
  · obtain ⟨m, y, hloop, hcount⟩ := noiseCount_of_pos c sr k.ncnt k.rng hpos
    exact ⟨m, by rw [hcount, hloop.result]⟩
  · exact ⟨0, by rw [noiseCount_of_nonpos c sr k.ncnt k.rng hnonpos, Function.iterate_zero_apply]⟩

theorem runUpdate_rng_clocked (c : Config) (p : Params) (sr : ℕ+) (k : CircuitState) :
    ∃ m, (runUpdate c p sr k).1.rng = noiseClock^[m] k.rng := by
  refine runUpdate_keeps (P := fun t => ∃ m, t.rng = noiseClock^[m] k.rng) ?_ ⟨0, rfl⟩
  rintro t ⟨m, ht⟩
  obtain ⟨n, hn⟩ := substep_rng_clocked c p sr (computeSteps c p sr) (noiseFreq c p) t
  exact ⟨n + m, by rw [nextCircuit, hn, ht, Function.iterate_add_apply]⟩

/-- At frequency 0 no clock is generated. -/
theorem runUpdate_rng_of_freq_zero {c : Config} {p : Params} (h : noiseFreq c p = 0) (sr : ℕ+)
    (k : CircuitState) : (runUpdate c p sr k).1.rng = k.rng :=
  runUpdate_unchanged c sr k CircuitState.rng fun t => by
    rw [nextCircuit, substep_rng, noiseCount_of_nonpos c sr t.ncnt t.rng h.le]

/-- Settles O41: an UPDATE clocks the register, and not at frequency 0; the other commands but INIT
leave it. -/
theorem noiseRegisterMovesByClocks : Obligations.NoiseRegisterMovesByClocks := by
  unfold Obligations.NoiseRegisterMovesByClocks
  intro i s t h hi
  obtain ⟨hinit, -⟩ | ⟨-, rfl⟩ | ⟨n, rfl, rfl⟩ | ⟨-, sr, p, rfl⟩ := exec_cases h
  · exact absurd hinit hi
  · exact ⟨0, rfl, fun _ => rfl⟩
  · by_cases hfreq : noiseFreq Config.cfg s.params = 0
    · exact ⟨0, runUpdate_rng_of_freq_zero hfreq _ _, fun _ => rfl⟩
    · obtain ⟨m, hm⟩ := runUpdate_rng_clocked Config.cfg s.params s.sampleRate s.circuit
      exact ⟨m, hm, fun hzero => hzero.elim (absurd · hfreq) fun hne => absurd rfl (hne n)⟩
  · exact ⟨0, rfl, fun _ => rfl⟩

end Sys2Proof.Machine
end

section
/-! PROOFS. Commands in sequence: the algebra of slot writes, which state part each command writes
(20_memory.md section 2), and runs of commands (`Executes`). -/

namespace Sys2Proof.Machine

variable {i j : Instr} {a b : Slot} {v w : SlotValue} {s t u : State} {is js : List Instr}

/-! ### The algebra of slot writes (47_commands_setp.md rule R260) -/

/-- The slots are the whole Parameter Store. -/
theorem Params.ext_read {p q : Params} (h : ∀ slot, p.read slot = q.read slot) : p = q := by
  cases p
  cases q
  rw [Params.mk.injEq]
  exact ⟨SlotValue.unsigned.inj (h .osRes), SlotValue.unsigned.inj (h .osCap),
    SlotValue.unsigned.inj (h .slfRes), SlotValue.unsigned.inj (h .slfCap),
    SlotValue.unsigned.inj (h .vcoRes), SlotValue.unsigned.inj (h .vcoCap),
    SlotValue.signed.inj (h .vcoVoltage), SlotValue.signed.inj (h .pitchVoltage),
    SlotValue.unsigned.inj (h .noiseClockRes), SlotValue.unsigned.inj (h .noiseFilterRes),
    SlotValue.unsigned.inj (h .noiseFilterCap), SlotValue.unsigned.inj (h .attackRes),
    SlotValue.unsigned.inj (h .decayRes), SlotValue.unsigned.inj (h .adCap),
    SlotValue.bits3.inj (h .mixer), SlotValue.env.inj (h .envMode),
    SlotValue.vcoMode.inj (h .vcoMode), SlotValue.bit.inj (h .enableN),
    SlotValue.signed.inj (h .osExtV), SlotValue.signed.inj (h .slfExtV),
    SlotValue.signed.inj (h .vcoExtV), SlotValue.bits3.inj (h .extEn)⟩

/-- What any slot reads after a SETP's write. -/
theorem Params.read_write (h : slotWrite? i = some (a, v)) (p : Params) (other : Slot) :
    (p.write a v).read other = if other = a then v else p.read other := by
  split
  next hsame => rw [hsame, Params.read_write_same h]
  next hne => rw [Params.read_write_other hne]

theorem Params.write_comm (hi : slotWrite? i = some (a, v)) (hj : slotWrite? j = some (b, w))
    (hne : a ≠ b) (p : Params) : (p.write a v).write b w = (p.write b w).write a v := by
  refine Params.ext_read fun other => ?_
  simp only [Params.read_write hi, Params.read_write hj]
  by_cases ha : other = a
  · rw [if_pos ha, if_neg (ha ▸ hne), if_pos ha]
  · rw [if_neg ha, if_neg ha]

theorem Params.write_write (hi : slotWrite? i = some (a, v)) (hj : slotWrite? j = some (a, w))
    (p : Params) : (p.write a v).write a w = p.write a w := by
  refine Params.ext_read fun other => ?_
  simp only [Params.read_write hi, Params.read_write hj]
  by_cases ha : other = a
  · rw [if_pos ha, if_pos ha]
  · rw [if_neg ha, if_neg ha, if_neg ha]

/-! ### Runs of commands -/

/-- Every command completes (60_exceptions.md rule R300): `exec` has no other outcome. -/
theorem exec_completes (i : Instr) (s : State) : ∃ t, exec i s = .next t := by
  cases i with
  | setsr n =>
    rcases n.eq_zero_or_pos with rfl | hpos
    · exact ⟨_, exec_setsr_zero s⟩
    · exact ⟨_, exec_setsr_of_pos s hpos⟩
  | _ => exact ⟨_, rfl⟩

theorem executes_nil_iff : Executes [] s t ↔ t = s :=
  ⟨fun h => by cases h; rfl, fun h => h ▸ .nil⟩

theorem executes_cons_iff :
    Executes (i :: is) s u ↔ ∃ t, exec i s = .next t ∧ Executes is t u :=
  ⟨fun h => by cases h with | cons hexec hrest => exact ⟨_, hexec, hrest⟩,
    fun ⟨_, hexec, hrest⟩ => .cons hexec hrest⟩

theorem executes_singleton_iff : Executes [i] s t ↔ exec i s = .next t := by
  simp [executes_cons_iff, executes_nil_iff]

theorem Executes.append (h : Executes is s t) (h' : Executes js t u) :
    Executes (is ++ js) s u := by
  induction h with
  | nil => exact h'
  | cons hexec _ ih => exact .cons hexec (ih h')

theorem executes_completes (is : List Instr) (s : State) : ∃ t, Executes is s t := by
  induction is generalizing s with
  | nil => exact ⟨s, .nil⟩
  | cons i is ih =>
    obtain ⟨t, hexec⟩ := exec_completes i s
    obtain ⟨u, hrest⟩ := ih t
    exact ⟨u, .cons hexec hrest⟩

/-- A run that begins with a SETP goes on from its write. -/
theorem executes_setp_cons_iff (h : slotWrite? i = some (a, v)) :
    Executes (i :: is) s t ↔ Executes is (s.setParams (s.params.write a v)) t := by
  simp [executes_cons_iff, exec_of_slotWrite h]

/-- Settles O18: the two runs leave the same Parameter Store, slot by slot. -/
theorem setpsCommuteOrOverwrite : Obligations.SetpsCommuteOrOverwrite := by
  unfold Obligations.SetpsCommuteOrOverwrite
  intro i j a b v w s t hi hj h
  rw [executes_setp_cons_iff hi, executes_setp_cons_iff hj, executes_nil_iff] at h
  subst h
  constructor
  · intro hne
    rw [executes_setp_cons_iff hj, executes_setp_cons_iff hi, executes_nil_iff]
    exact congrArg s.setParams (Params.write_comm hi hj hne s.params)
  · rintro rfl
    rw [executes_setp_cons_iff hj, executes_nil_iff]
    exact congrArg s.setParams (Params.write_write hi hj s.params)

/-! ### Idempotence and write access (20_memory.md rule R68; 10_state.md section 2) -/

theorem exec_setp_idempotent (hw : slotWrite? i = some (a, v)) (h : exec i s = .next t) :
    exec i t = .next t := by
  rw [exec_of_slotWrite hw] at h ⊢
  cases h
  exact congrArg (fun p => Host.Outcome.next (s.setParams p)) (Params.write_write hw hw s.params)

/-- SETSR stores a positive rate, or at 0 nothing. -/
theorem exec_setsr_cases {n : ℕ} (h : exec (.setsr n) s = .next t) :
    (n = 0 ∧ t = s) ∨ ∃ hpos : 0 < n, t = s.setSampleRate ⟨n, hpos⟩ := by
  rcases n.eq_zero_or_pos with rfl | hpos
  · exact .inl ⟨rfl, (Host.Outcome.next.inj h).symm⟩
  · rw [exec_setsr_of_pos s hpos] at h
    exact .inr ⟨hpos, (Host.Outcome.next.inj h).symm⟩

/-- Settles O19: INIT and TRIG by the state they leave, SETSR by its two cases, a SETP by the second
write's being the first. -/
theorem allButUpdateAreIdempotent : Obligations.AllButUpdateAreIdempotent := by
  unfold Obligations.AllButUpdateAreIdempotent
  intro i s t hne h
  cases i with
  | nop => exact exec_nop t
  | init =>
    obtain rfl : s.initialised Config.cfg = t := Host.Outcome.next.inj h
    rw [exec_init, State.initialised_initialised]
  | trig =>
    obtain rfl : s.triggered = t := Host.Outcome.next.inj h
    rw [exec_trig, State.triggered_triggered]
  | setsr n =>
    obtain ⟨rfl, rfl⟩ | ⟨hpos, rfl⟩ := exec_setsr_cases h
    · exact h
    · exact exec_setsr_of_pos _ hpos
  | update n => exact absurd rfl (hne n)
  | _ => exact exec_setp_idempotent rfl h

/-- SAMPLE_RATE is SETSR's. -/
theorem exec_sampleRate (h : exec i s = .next t) :
    t.sampleRate = s.sampleRate ∨ i = .setsr (t.sampleRate : ℕ) := by
  cases i with
  | setsr n =>
    obtain ⟨-, rfl⟩ | ⟨hpos, rfl⟩ := exec_setsr_cases h
    · exact .inl rfl
    · exact .inr rfl
  | _ => exact .inl (by cases h; rfl)

/-- The Parameter Store is a SETP's, one slot each, and INIT's in `VCO_MODE`. -/
theorem exec_params (h : exec i s = .next t) :
    t.params = s.params ∨ (i = .init ∧ t.params = s.params.write .vcoMode (.vcoMode .internal)) ∨
      ∃ slot v, slotWrite? i = some (slot, v) ∧ t.params = s.params.write slot v := by
  cases i with
  | nop | trig | update _ => exact .inl (by cases h; rfl)
  | init => exact .inr (.inl ⟨rfl, by cases h; rfl⟩)
  | setsr n =>
    obtain ⟨-, rfl⟩ | ⟨hpos, rfl⟩ := exec_setsr_cases h
    · exact .inl rfl
    · exact .inl rfl
  | _ => exact .inr (.inr ⟨_, _, rfl, by cases h; rfl⟩)

/-- A slot is its own SETP's, and `VCO_MODE` INIT's too. -/
theorem exec_read (h : exec i s = .next t) (slot : Slot) :
    t.params.read slot = s.params.read slot ∨ slotWrite? i = some (slot, t.params.read slot) ∨
      (i = .init ∧ slot = .vcoMode) := by
  obtain hp | ⟨rfl, hp⟩ | ⟨a, v, hw, hp⟩ := exec_params h
  · exact .inl (by rw [hp])
  · by_cases hslot : slot = .vcoMode
    · exact .inr (.inr ⟨rfl, hslot⟩)
    · exact .inl (by rw [hp, Params.read_write_other hslot])
  · by_cases hslot : slot = a
    · exact .inr (.inl (by rw [hp, hslot, Params.read_write_same hw, hw]))
    · exact .inl (by rw [hp, Params.read_write_other hslot])

/-- Settles O21: SAMPLE_RATE and the slots by their writers; the CircuitState and the port inputs by
what a completed command did. -/
theorem writeAccess : Obligations.WriteAccess := by
  unfold Obligations.WriteAccess
  refine fun i s t h => ⟨(exec_sampleRate h).resolve_left,
    fun slot => (exec_read h slot).resolve_left, ?_⟩
  obtain ⟨hinit, rfl⟩ | ⟨htrig, rfl⟩ | ⟨n, hup, rfl⟩ | ⟨-, sr, p, rfl⟩ := exec_cases h
  · exact ⟨fun _ => .inl hinit, rfl⟩
  · exact ⟨fun _ => .inr (.inl htrig), rfl⟩
  · exact ⟨fun _ => .inr (.inr ⟨n, hup⟩), rfl⟩
  · exact ⟨fun hne => absurd rfl hne, rfl⟩

/-! ### An UPDATE after a run (20_memory.md rule R70) -/

/-- A run without UPDATE gives no response. -/
theorem Executes.rsp_eq (h : Executes is s t) (hne : ∀ i ∈ is, ∀ m, i ≠ .update m) :
    t.rsp = s.rsp := by
  induction h with
  | nil => rfl
  | cons hexec _ ih =>
    obtain ⟨hhead, htail⟩ := List.forall_mem_cons.mp hne
    obtain ⟨n, hup, -⟩ | ⟨-, hrsp⟩ := exec_rsp hexec
    · exact absurd hup (hhead n)
    · exact (ih htail).trans hrsp

/-- Settles O56: the run by induction, the UPDATE after it from the state the run left. -/
theorem updateSeesTheLatestParameters : Obligations.UpdateSeesTheLatestParameters := by
  unfold Obligations.UpdateSeesTheLatestParameters
  intro is n s t hne h
  exact ⟨h.rsp_eq hne, t.updated Config.cfg,
    h.append (executes_singleton_iff.mpr (exec_update n t)), rfl, rfl, rfl, rfl⟩

/-! ### The pseudo-instructions (30_encoding.md rule R96) -/

/-- The three enables in the bits the expansion of `setmix` gives them. -/
theorem setmix_bits (v w n : Bool) :
    (BitVec.ofNat 3 (n.toNat * 4 + w.toNat * 2 + v.toNat)).getLsbD 0 = v ∧
    (BitVec.ofNat 3 (n.toNat * 4 + w.toNat * 2 + v.toNat)).getLsbD 1 = w ∧
    (BitVec.ofNat 3 (n.toNat * 4 + w.toNat * 2 + v.toNat)).getLsbD 2 = n := by
  decide +revert

/-- The runs of one, two and three SETPs, as an expansion has them. -/
theorem executes_setp_iff (hi : slotWrite? i = some (a, v)) :
    Executes [i] s t ↔ t = s.setParams (s.params.write a v) := by
  rw [executes_setp_cons_iff hi, executes_nil_iff]

theorem executes_setp_setp_iff (hi : slotWrite? i = some (a, v)) (hj : slotWrite? j = some (b, w)) :
    Executes [i, j] s t ↔ t = s.setParams ((s.params.write a v).write b w) := by
  rw [executes_setp_cons_iff hi, executes_setp_iff hj]
  rfl

theorem executes_setp_setp_setp_iff {k : Instr} {d : Slot} {x : SlotValue}
    (hi : slotWrite? i = some (a, v)) (hj : slotWrite? j = some (b, w))
    (hk : slotWrite? k = some (d, x)) :
    Executes [i, j, k] s t ↔
      t = s.setParams (((s.params.write a v).write b w).write d x) := by
  rw [executes_setp_cons_iff hi, executes_setp_setp_iff hj hk]
  rfl

/-- Settles O57: each expansion completes, and its run is its commands' writes, one after the other.
-/
theorem pseudoInstructionsExpand : Obligations.PseudoInstructionsExpand := by
  unfold Obligations.PseudoInstructionsExpand
  refine fun s => ⟨fun ps => executes_completes (expandPseudo ps) s, ?_, ?_, ?_, ?_, ?_, ?_, ?_, ?_,
    fun t => executes_singleton_iff.mp⟩
  case refine_1 | refine_2 | refine_3 | refine_4 =>
    rintro r c t h
    obtain rfl := (executes_setp_setp_iff rfl rfl).mp h
    exact ⟨rfl, rfl⟩
  · rintro r d c t h
    obtain rfl := (executes_setp_setp_setp_iff rfl rfl rfl).mp h
    exact ⟨rfl, rfl, rfl⟩
  · rintro v w n t h
    obtain rfl := (executes_setp_iff rfl).mp h
    exact setmix_bits v w n
  case refine_7 | refine_8 =>
    rintro t h
    obtain rfl := (executes_setp_iff rfl).mp h
    rfl

end Sys2Proof.Machine
end

section
/-! PROOFS. The response port's sample fits its wires (30_encoding.md rule R97): every sample is one
of the configuration's output voltages', and `SAMPLE_W` holds all of these. -/

namespace Sys2Proof.Machine

/-! ### Widths -/

theorem lt_two_pow_bitCount (n : ℕ) : n < 2 ^ bitCount n := by
  unfold bitCount
  split
  next hzero => simp [hzero]
  next => exact Nat.lt_log2_self

/-- A width that is at least an integer's own holds it in two's complement. -/
theorem mem_of_signedWidth_le {x : ℤ} {w : ℕ} (h : signedWidth x ≤ w) :
    -2 ^ (w - 1) ≤ x ∧ x < 2 ^ (w - 1) := by
  unfold signedWidth at h
  generalize hmag : (if 0 ≤ x then x.toNat else (-x - 1).toNat) = mag at h
  have hlt : mag < 2 ^ (w - 1) :=
    (lt_two_pow_bitCount mag).trans_le (Nat.pow_le_pow_right two_pos (Nat.le_sub_one_of_lt h))
  have hltZ : (mag : ℤ) < 2 ^ (w - 1) := by exact_mod_cast hlt
  split at hmag <;> omega

section Widths

variable {c : Config} {v : Voltage}

/-- The fold of `leastSampleWidth` is at least the width of each voltage's sample. -/
theorem signedWidth_le_foldr {l : List Voltage} (h : v ∈ l) :
    signedWidth (sampleOf c v) ≤
      l.foldr (fun v w => max (signedWidth (sampleOf c v)) w) 1 := by
  induction l with
  | nil => cases h
  | cons u l ih =>
    obtain rfl | hl := List.mem_cons.mp h
    · exact le_max_left _ _
    · exact (ih hl).trans (le_max_right _ _)

theorem signedWidth_le_sampleW (h : v ∈ possibleVouts c) :
    signedWidth (sampleOf c v) ≤ sampleW c :=
  (signedWidth_le_foldr h).trans (Nat.le_add_right _ _)

theorem one_le_foldr_width (l : List Voltage) :
    1 ≤ l.foldr (fun v w => max (signedWidth (sampleOf c v)) w) 1 := by
  induction l with
  | nil => exact le_rfl
  | cons u l ih => exact ih.trans (le_max_right _ _)

theorem sampleW_pos (c : Config) : 0 < sampleW c :=
  (one_le_foldr_width (possibleVouts c)).trans (Nat.le_add_right _ _)

end Widths

/-! ### The samples of an UPDATE (44_mixer_output.md rule R210) -/

section Samples

variable (c : Config)

/-- The output voltage is the centre, or a branch's voltage at an entry of its table. -/
theorem outputVoltage_mem_possibleVouts (active bit : Bool) (idx : Fin 45) :
    outputVoltage c active bit idx ∈ possibleVouts c := by
  cases active with
  | false => exact List.mem_cons_self
  | true =>
    have hbranch : activeVout c bit idx ∈ [activeVout c true idx, activeVout c false idx] := by
      cases bit <;> simp
    exact List.mem_cons_of_mem _ (List.mem_flatMap.mpr ⟨idx, List.mem_finRange idx, hbranch⟩)

/-- An UPDATE's sample is that of an output voltage, under the gate of its last sub-step. -/
theorem runUpdate_sample (p : Params) (sr : ℕ+) (k : CircuitState) :
    ∃ vcoEff bit idx, (runUpdate c p sr k).2.1 =
      sampleOf c (outputVoltage c (outputActive c p vcoEff) bit idx) := by
  rw [runUpdate_eq_substep, substep_sample]
  exact ⟨_, _, _, rfl⟩

theorem signedWidth_runUpdate_sample_le (p : Params) (sr : ℕ+) (k : CircuitState) :
    signedWidth (runUpdate c p sr k).2.1 ≤ sampleW c := by
  obtain ⟨vcoEff, bit, idx, hsample⟩ := runUpdate_sample c p sr k
  rw [hsample]
  exact signedWidth_le_sampleW (outputVoltage_mem_possibleVouts c _ _ _)

end Samples

/-! ### The held sample over a step -/

variable {s t : State}

theorem State.SampleFits.of_sample_eq (hs : s.SampleFits) (h : t.rsp.sample = s.rsp.sample) :
    t.SampleFits := by
  unfold State.SampleFits
  rw [h]
  exact hs

theorem State.sampleFits_of_sample_zero (h : s.rsp.sample = 0) : s.SampleFits := by
  unfold State.SampleFits
  rw [h]
  exact ⟨neg_nonpos.mpr (by positivity), by positivity⟩

/-- A command's response, if it gives one, fits. -/
theorem exec_sampleFits {i : Instr} (hs : s.SampleFits) (h : exec i s = .next t) :
    t.SampleFits := by
  obtain ⟨-, rfl⟩ | ⟨-, rfl⟩ | ⟨n, -, rfl⟩ | ⟨-, sr, p, rfl⟩ := exec_cases h
  · exact hs
  · exact hs
  · exact mem_of_signedWidth_le
      (signedWidth_runUpdate_sample_le Config.cfg s.params s.sampleRate s.circuit)
  · exact hs

theorem step_sampleFits (hs : s.SampleFits) (h : step s = .next t) : t.SampleFits := by
  obtain ⟨-, rfl⟩ | ⟨rest, -, rfl⟩ | ⟨w, rest, i, -, -, hexec⟩ := step_cases h
  · exact hs.of_sample_eq rfl
  · exact State.sampleFits_of_sample_zero rfl
  · have haccept : (s.accept rest).SampleFits := hs.of_sample_eq rfl
    exact exec_sampleFits haccept hexec

/-- A sample that fits is what its wires read. -/
theorem State.SampleFits.samplePort_toInt (hs : s.SampleFits) :
    s.samplePort.toInt = s.rsp.sample := by
  obtain ⟨hlo, hhi⟩ := hs
  exact BitVec.toInt_ofInt_eq_self (sampleW_pos Config.cfg) hlo hhi

/-- Settles O44: a step keeps the sample, resets it or responds one that fits; then the wires hold
it. -/
theorem samplesFitThePort : Obligations.SamplesFitThePort := by
  unfold Obligations.SamplesFitThePort
  intro s t hs h
  have ht := step_sampleFits hs h
  exact ⟨ht, ht.samplePort_toInt⟩

/-! ### The machine's invariant (10_state.md section 3) -/

theorem step_inv (hs : s.Inv) (h : step s = .next t) : t.Inv := by
  obtain ⟨hrange, hcount, hsample⟩ := hs
  exact ⟨step_keeps_circuit (CircuitState.reset_inRange Config.cfg) (fun _ hk => hk)
      (fun _ _ _ => substep_inRange) hrange h,
    step_counterBounded hcount h, step_sampleFits hsample h⟩

/-- Settles O46: each of the three parts is kept by itself. -/
theorem stepKeepsTheInvariant : Obligations.StepKeepsTheInvariant := by
  unfold Obligations.StepKeepsTheInvariant
  exact fun _ _ => step_inv

/-- The invariant says nothing of what the host presents. -/
theorem reset_inv (inputs : List PortInput) : ({ State.reset with inputs := inputs } : State).Inv :=
  ⟨CircuitState.reset_inRange Config.cfg, CircuitState.reset_counterBounded Config.cfg,
    State.sampleFits_of_sample_zero rfl⟩

/-- Settles O45: the reset state is the one with nothing presented. -/
theorem resetMeetsTheInvariant : Obligations.ResetMeetsTheInvariant := by
  unfold Obligations.ResetMeetsTheInvariant
  exact reset_inv []

/-- Settles O58, by induction over the run. -/
theorem reachableStatesMeetTheInvariant : Obligations.ReachableStatesMeetTheInvariant := by
  unfold Obligations.ReachableStatesMeetTheInvariant
  intro s h
  induction h with
  | reset inputs => exact reset_inv inputs
  | step _ hs ih => exact step_inv ih hs

end Sys2Proof.Machine
end

section
/-! PROOFS. The step as an equation for each thing the host can present (30_encoding.md rules R80,
R81; 70_reset_and_hazards.md rules R330, R331). -/

namespace Sys2Proof.Machine

variable {s : State} {w : Command Config.cfg} {rest : List PortInput} {i : Instr}

theorem step_of_nothing (h : s.inputs = []) : step s = .next s.idle := by
  simp only [step, h]

theorem step_of_rst (h : s.inputs = .rst :: rest) : step s = .next (State.powerOnReset rest) := by
  simp only [step, h]

theorem step_of_command (hin : s.inputs = .command w :: rest) (hdec : decode Config.cfg w = .ok i) :
    step s = exec i (s.accept rest) := by
  simp only [step, hin, hdec]

/-- Settles O7: the accepted state is the one written out. -/
theorem stepRunsTheDecodedCommand : Obligations.StepRunsTheDecodedCommand := by
  unfold Obligations.StepRunsTheDecodedCommand
  exact fun _ _ _ _ => step_of_command

theorem decode_of_decodeTableWord {nbits n : ℕ} (h : decodeTableWord nbits n = some i) :
    decode Config.cfg (commandOfWord Config.cfg nbits n) = .ok i := by
  unfold decodeTableWord at h
  split at h
  next hdec => rw [hdec, Option.some.inj h]
  next => cases h

/-- Settles O8: the presented command is taken from the port, which leaves what was presented
before. -/
theorem stepRunsThePresentedWord : Obligations.StepRunsThePresentedWord := by
  unfold Obligations.StepRunsThePresentedWord
  exact fun s nbits n i h =>
    step_of_command (s.withFetchWord_inputs nbits n) (decode_of_decodeTableWord h)

/-- Settles O9: the idle state's fields. -/
theorem idleStepKeepsAllState : Obligations.IdleStepKeepsAllState := by
  unfold Obligations.IdleStepKeepsAllState
  exact fun s h => ⟨s.idle, step_of_nothing h, s.idle_params, s.idle_sampleRate, s.idle_circuit,
    rfl, rfl, rfl, s.idle_inputs⟩

/-- Settles O10: a step by what the host presents, a command by its decoding. -/
theorem everyCommandCompletes : Obligations.EveryCommandCompletes := by
  unfold Obligations.EveryCommandCompletes
  refine ⟨exec_completes, fun s => ?_⟩
  match hin : s.inputs with
  | [] => exact .inl ⟨_, step_of_nothing hin⟩
  | .rst :: rest => exact .inl ⟨_, step_of_rst hin⟩
  | .command w :: rest =>
    match hdec : decode Config.cfg w with
    | .ok i =>
      obtain ⟨t, hexec⟩ := exec_completes i (s.accept rest)
      exact .inl ⟨t, (step_of_command hin hdec).trans hexec⟩
    | .error e => exact .inr ⟨w, rest, e, rfl, hdec, step_of_decode_error hin hdec⟩

/-- Settles O12: the fields of the power-on state. -/
theorem rstResetsTheWholeBlock : Obligations.RstResetsTheWholeBlock := by
  unfold Obligations.RstResetsTheWholeBlock
  exact fun s rest h => ⟨State.powerOnReset rest, step_of_rst h, State.powerOnReset_params rest,
    State.powerOnReset_sampleRate rest, State.powerOnReset_circuit rest, rfl, rfl, rfl,
    State.powerOnReset_inputs rest⟩

/-- Settles O11: the slots class by class, every other value as the reset state has it. -/
theorem resetValues : Obligations.ResetValues := by
  unfold Obligations.ResetValues
  simp only [List.forall_mem_cons, List.not_mem_nil, false_imp_iff, implies_true, and_true]
  exact ⟨⟨rfl, rfl, rfl, rfl, rfl, rfl, rfl, rfl, rfl, rfl, rfl, rfl⟩, ⟨rfl, rfl, rfl, rfl, rfl⟩,
    rfl, rfl, rfl, rfl, rfl, rfl, rfl, rfl, rfl, rfl, rfl, rfl, rfl, rfl, rfl, rfl, rfl, rfl⟩

end Sys2Proof.Machine
end

section
/-! PROOFS. The ten steps are not negative (40_rate_computer.md), and are 0 for a stage whose
components are unset (rule R111). -/

namespace Sys2Proof.Machine

/-- Fitted functions and sentinel rates are `>= 0` (00_scope.md rule R13; rule R111). -/
theorem rate_nonneg (f : Component → Component → Component) (r k : Component) : 0 ≤ rate f r k := by
  unfold rate
  split
  · exact (f r k).property
  split
  · norm_num [Config.rateNever]
  split
  · norm_num [Config.rateInstant]
  · exact le_rfl

theorem stepOf_rate_nonneg (sr : ℕ+) (f : Component → Component → Component) (r k : Component) :
    0 ≤ stepOf sr (rate f r k) :=
  div_nonneg (rate_nonneg f r k) (Nat.cast_nonneg _)

theorem sdiv_nonneg {a b : ℚ} (ha : 0 ≤ a) (hb : 0 ≤ b) : 0 ≤ sdiv a b := by
  unfold sdiv
  split
  · exact div_nonneg ha hb
  split
  · exact le_rfl
  · norm_num [Config.rateInstant]

/-- Settles O33: each step is a rate over SAMPLE_RATE, the VCO's divided or multiplied by the duty
multiplier. -/
theorem stepsAreNonnegative : Obligations.StepsAreNonnegative := by
  unfold Obligations.StepsAreNonnegative
  rintro c p sr _ rfl
  obtain ⟨hduty, -⟩ := dutyMultiplier_mem_Icc p
  have hstep := stepOf_rate_nonneg sr
  exact ⟨hstep _ _ _, hstep _ _ _, hstep _ _ _, hstep _ _ _, sdiv_nonneg (hstep _ _ _) hduty,
    mul_nonneg (hstep _ _ _) hduty, hstep _ _ _, hstep _ _ _, hstep _ _ _, hstep _ _ _⟩

theorem stepOf_rate_of_unset (sr : ℕ+) (f : Component → Component → Component) {r k : Component}
    (hr : r.val = 0) (hk : k.val = 0) : stepOf sr (rate f r k) = 0 :=
  stepOf_eq_zero_iff.mpr (rate_of_unset f hr hk)

theorem zero_sdiv (b : ℚ) : sdiv 0 b = 0 := by
  simp [sdiv]

theorem computeSteps_vco_of_unset (c : Config) {p : Params} (sr : ℕ+) (hr : p.vcoRes.val = 0)
    (hk : p.vcoCap.val = 0) :
    (computeSteps c p sr).vcoChg = 0 ∧ (computeSteps c p sr).vcoDis = 0 := by
  have hchg : vcoChgBase c p sr = 0 := stepOf_rate_of_unset sr c.fVcoChg hr hk
  have hdis : vcoDisBase c p sr = 0 := stepOf_rate_of_unset sr c.fVcoDis hr hk
  rw [computeSteps_vcoChg, computeSteps_vcoDis, hchg, hdis, zero_sdiv, zero_mul]
  exact ⟨rfl, rfl⟩

end Sys2Proof.Machine
end

section
/-! PROOFS. The oscillators and the envelope over many sub-steps (41_oscillators.md, 43_envelope.md,
"behaviour that follows"): ramps that end at the range's upper end, and capacitors that stand still.
-/

namespace Sys2Proof.Machine

/-! ### A ramp -/

/-- A quantity `v` that, while `rising`, goes up by `d` as long as that stays below `hi`, and else
stops at `hi`, where `done` holds. -/
structure IsRamp {α : Type} (g : α → α) (v : α → ℚ) (rising done : α → Prop) (hi d : ℚ) : Prop where
  below : ∀ x, rising x → v x + d < hi → rising (g x) ∧ v (g x) = v x + d
  reach : ∀ x, rising x → hi ≤ v x + d → done (g x) ∧ v (g x) = hi

section Ramp

variable {α : Type} {g : α → α} {v : α → ℚ} {rising done : α → Prop} {hi d : ℚ} {x : α} {j : ℕ}

/-- The ramp while no count up to `j` has reached `hi`. -/
theorem IsRamp.iterate (h : IsRamp g v rising done hi d) (hx : rising x)
    (hj : ∀ i : ℕ, 1 ≤ i → i ≤ j → v x + i * d < hi) :
    rising (g^[j] x) ∧ v (g^[j] x) = v x + j * d := by
  induction j with
  | zero => exact ⟨hx, by simp⟩
  | succ j ih =>
    obtain ⟨hrising, hv⟩ := ih fun i hone hij => hj i hone (hij.trans j.le_succ)
    have hnext : v x + (j + 1 : ℕ) * d = v (g^[j] x) + d := by
      rw [hv]
      push_cast
      ring
    rw [Function.iterate_succ_apply', hnext]
    exact h.below _ hrising (hnext ▸ hj (j + 1) (by omega) le_rfl)

/-- The first count that reaches `hi` stops there. -/
theorem IsRamp.iterate_end (h : IsRamp g v rising done hi d) (hx : rising x) (hpos : 1 ≤ j)
    (hj : ∀ i : ℕ, 1 ≤ i → i < j → v x + i * d < hi) (hend : hi ≤ v x + j * d) :
    done (g^[j] x) ∧ v (g^[j] x) = hi := by
  obtain ⟨n, rfl⟩ := Nat.exists_eq_succ_of_ne_zero (Nat.one_le_iff_ne_zero.mp hpos)
  obtain ⟨hrising, hv⟩ := h.iterate hx fun i hone hin => hj i hone (Nat.lt_succ_of_le hin)
  rw [Function.iterate_succ_apply']
  refine h.reach _ hrising ?_
  rw [hv]
  push_cast at hend
  linarith

end Ramp

variable {c : Config} {p : Params} {sr : ℕ+} {k : CircuitState}

/-! ### The one-shot (41_oscillators.md rules R143 to R145) -/

section OneShot

theorem nextCircuit_osV_of_running (hoff : p.osOverride = false) (hrun : k.osRun = true)
    (hmin : c.os.min ≤ k.osV) :
    (nextCircuit c p sr k).osV = min (k.osV + (computeSteps c p sr).osChg) c.os.max := by
  have hchg : 0 ≤ (computeSteps c p sr).osChg := stepOf_rate_nonneg sr _ _ _
  rw [nextCircuit, substep_osV, osMove_fst_eq, if_pos hoff, if_pos hrun, clamp_eq_min (by linarith)]

theorem nextCircuit_osV_of_resting (hoff : p.osOverride = false) (hrest : k.osRun = false)
    (hmax : k.osV ≤ c.os.max) :
    (nextCircuit c p sr k).osV = max (k.osV - (computeSteps c p sr).osDis) c.os.min := by
  have hdis : 0 ≤ (computeSteps c p sr).osDis := stepOf_rate_nonneg sr _ _ _
  rw [nextCircuit, substep_osV, osMove_fst_eq, if_pos hoff, hrest, if_neg Bool.false_ne_true,
    clamp_eq_max (by linarith) c.os.min_le_max]

theorem nextCircuit_osRun (hoff : p.osOverride = false) :
    (nextCircuit c p sr k).osRun = osRunNext c (nextCircuit c p sr k).osV k.osRun := by
  rw [nextCircuit, substep_osRun, osMove_snd_eq, if_pos hoff, substep_osV]

theorem osRunNext_true_eq_false_iff {v : Voltage} : osRunNext c v true = false ↔ c.os.max ≤ v := by
  simp [osRunNext]

/-- Settles O47: the two movements, and the MAX test on a register that never exceeds MAX. -/
theorem oneShotShape : Obligations.OneShotShape := by
  unfold Obligations.OneShotShape
  rintro c p sr k _ hk hoff rfl
  obtain ⟨⟨hmin, hmax⟩, -⟩ := hk
  have hchg : 0 ≤ (computeSteps c p sr).osChg := stepOf_rate_nonneg sr _ _ _
  have hdis : 0 ≤ (computeSteps c p sr).osDis := stepOf_rate_nonneg sr _ _ _
  rw [nextCircuit_osRun hoff]
  constructor
  · intro hrun
    rw [hrun, osRunNext_true_eq_false_iff, nextCircuit_osV_of_running hoff hrun hmin]
    exact ⟨le_min (by linarith) hmax, (min_le_right _ _).ge_iff_eq⟩
  · intro hrest
    rw [hrest, nextCircuit_osV_of_resting hoff hrest hmax]
    exact ⟨max_le (by linarith) hmin, osRunNext_false c _⟩

/-- A running one-shot is a ramp to MAX, where the flag falls. -/
theorem oneShot_isRamp (hoff : p.osOverride = false) :
    IsRamp (nextCircuit c p sr) CircuitState.osV (fun k => k.osRun = true ∧ c.os.min ≤ k.osV)
      (fun k => k.osRun = false) c.os.max (computeSteps c p sr).osChg where
  below := by
    rintro k ⟨hrun, hmin⟩ hlt
    have hchg : 0 ≤ (computeSteps c p sr).osChg := stepOf_rate_nonneg sr _ _ _
    rw [nextCircuit_osRun hoff, nextCircuit_osV_of_running hoff hrun hmin, min_eq_left hlt.le,
      osRunNext_of_not_ge_max hlt.not_ge]
    exact ⟨⟨hrun, by linarith⟩, rfl⟩
  reach := by
    rintro k ⟨hrun, hmin⟩ hge
    rw [nextCircuit_osRun hoff, nextCircuit_osV_of_running hoff hrun hmin, min_eq_right hge]
    exact ⟨osRunNext_of_ge_max le_rfl, rfl⟩

/-- Settles O48: the ramp before its end and at its end. -/
theorem oneShotPulseLength : Obligations.OneShotPulseLength := by
  unfold Obligations.OneShotPulseLength
  rintro c p sr k _ hk hoff hrun rfl - j
  obtain ⟨⟨hmin, -⟩, -⟩ := hk
  have hramp := oneShot_isRamp (c := c) (p := p) (sr := sr) hoff
  refine ⟨fun hbelow => ?_, fun hpos hbelow hend => ?_⟩
  · obtain ⟨⟨hrunning, -⟩, hv⟩ := hramp.iterate ⟨hrun, hmin⟩ hbelow
    exact ⟨hrunning, hv⟩
  · exact hramp.iterate_end ⟨hrun, hmin⟩ hpos hbelow hend

end OneShot

/-! ### The SLF (41_oscillators.md rules R146 to R148) -/

section Slf

theorem nextCircuit_slfV_of_charging (hoff : p.slfOverride = false) (hff : k.slfFf = false)
    (hmin : c.slf.min ≤ k.slfV) :
    (nextCircuit c p sr k).slfV = min (k.slfV + (computeSteps c p sr).slfChg) c.slf.max := by
  have hchg : 0 ≤ (computeSteps c p sr).slfChg := stepOf_rate_nonneg sr _ _ _
  rw [nextCircuit, substep_slfV, slfMove_fst_eq, if_pos hoff, if_pos hff,
    clamp_eq_min (by linarith)]

theorem nextCircuit_slfFf (hoff : p.slfOverride = false) :
    (nextCircuit c p sr k).slfFf = slfFfNext c (nextCircuit c p sr k).slfV k.slfFf := by
  rw [nextCircuit, substep_slfFf, slfMove_snd_eq, if_pos hoff, substep_slfV]

/-- Below MAX a clear flip-flop stays clear, whether or not the voltage is at MIN. -/
theorem slfFfNext_false_of_lt_max {v : Voltage} (h : v < c.slf.max) :
    slfFfNext c v false = false := by
  by_cases hmin : v ≤ c.slf.min
  · exact slfFfNext_of_le_min h.not_ge hmin
  · exact slfFfNext_of_between h.not_ge hmin

/-- A charging SLF is a ramp to MAX, where the flip-flop sets. -/
theorem slf_isRamp (hoff : p.slfOverride = false) :
    IsRamp (nextCircuit c p sr) CircuitState.slfV (fun k => k.slfFf = false ∧ c.slf.min ≤ k.slfV)
      (fun k => k.slfFf = true) c.slf.max (computeSteps c p sr).slfChg where
  below := by
    rintro k ⟨hff, hmin⟩ hlt
    have hchg : 0 ≤ (computeSteps c p sr).slfChg := stepOf_rate_nonneg sr _ _ _
    rw [nextCircuit_slfFf hoff, nextCircuit_slfV_of_charging hoff hff hmin, min_eq_left hlt.le, hff,
      slfFfNext_false_of_lt_max hlt]
    exact ⟨⟨rfl, by linarith⟩, rfl⟩
  reach := by
    rintro k ⟨hff, hmin⟩ hge
    rw [nextCircuit_slfFf hoff, nextCircuit_slfV_of_charging hoff hff hmin, min_eq_right hge]
    exact ⟨slfFfNext_of_ge_max le_rfl, rfl⟩

/-- Settles O49: the ramp from MIN; a step that is positive reaches no count before a later one. -/
theorem slfRiseTime : Obligations.SlfRiseTime := by
  unfold Obligations.SlfRiseTime
  rintro c p sr k d hrange hmin hff hoff rfl hd j
  have hramp := slf_isRamp (c := c) (p := p) (sr := sr) hoff
  have hstart : k.slfFf = false ∧ c.slf.min ≤ k.slfV := ⟨hff, hmin.ge⟩
  rw [← hmin] at hrange ⊢
  refine ⟨fun hlt => ?_, fun hend hbefore => ?_⟩
  · have hbelow : ∀ i : ℕ, 1 ≤ i → i ≤ j →
        k.slfV + i * (computeSteps c p sr).slfChg < c.slf.max := fun i _ hij => by
      have hmul := mul_le_mul_of_nonneg_right (Nat.cast_le (α := ℚ).mpr hij) hd.le
      linarith
    obtain ⟨⟨hclear, -⟩, hv⟩ := hramp.iterate hstart hbelow
    exact ⟨hv, hclear⟩
  · have hpos : 1 ≤ j := by
      by_contra hzero
      obtain rfl : j = 0 := by omega
      push_cast at hend
      linarith
    have hbelow : ∀ i : ℕ, 1 ≤ i → i < j →
        k.slfV + i * (computeSteps c p sr).slfChg < c.slf.max := fun i _ hij => by
      have hcast : (i : ℚ) ≤ j - 1 := by
        have hsucc := Nat.cast_le (α := ℚ).mpr (Nat.succ_le_of_lt hij)
        push_cast at hsucc
        linarith
      have hmul := mul_le_mul_of_nonneg_right hcast hd.le
      linarith
    obtain ⟨hset, hv⟩ := hramp.iterate_end hstart hpos hbelow hend
    exact ⟨hv, hset⟩

end Slf

/-! ### The envelope in `MIXER_ONLY` mode (43_envelope.md rules R190, R192, R193) -/

section Envelope

theorem nextCircuit_adV_of_mixerOnly (h : p.envMode = .mixerOnly) :
    (nextCircuit c p sr k).adV =
      envMove c true k.adV (computeSteps c p sr).adChg (computeSteps c p sr).adDis := by
  rw [nextCircuit, substep_adV, h]
  rfl

/-- A ramp that is cut off at `hi` in every step is the ramp cut off at `hi` once. -/
theorem min_min_add {y hi d : ℚ} (hd : 0 ≤ d) : min (min y hi + d) hi = min (y + d) hi := by
  rcases le_total y hi with h | h
  · rw [min_eq_left h]
  · rw [min_eq_right h, min_eq_right (by linarith), min_eq_right (by linarith)]

theorem iterate_adV_of_positive_step (h : p.envMode = .mixerOnly)
    (hd : 0 < (computeSteps c p sr).adChg) (hk : c.ad.min ≤ k.adV ∧ k.adV ≤ c.ad.max) (j : ℕ) :
    ((nextCircuit c p sr)^[j] k).adV =
      min (k.adV + j * (computeSteps c p sr).adChg) c.ad.max := by
  obtain ⟨hmin, hmax⟩ := hk
  induction j with
  | zero => simpa using hmax
  | succ j ih =>
    have hramp : c.ad.min ≤ k.adV + j * (computeSteps c p sr).adChg := by
      have hrise : 0 ≤ j * (computeSteps c p sr).adChg := by positivity
      linarith
    have hlow := le_min hramp c.ad.min_le_max
    rw [Function.iterate_succ_apply', nextCircuit_adV_of_mixerOnly h, envMove_attack_ramp _ _ hd,
      ih, clamp_eq_min (by linarith), min_min_add hd.le]
    push_cast
    ring_nf

theorem iterate_adV_of_zero_step (h : p.envMode = .mixerOnly)
    (hd : (computeSteps c p sr).adChg = 0) {j : ℕ} (hj : 1 ≤ j) :
    ((nextCircuit c p sr)^[j] k).adV = c.ad.max := by
  obtain ⟨n, rfl⟩ := Nat.exists_eq_succ_of_ne_zero (Nat.one_le_iff_ne_zero.mp hj)
  rw [Function.iterate_succ_apply', nextCircuit_adV_of_mixerOnly h,
    envMove_attack_snap _ _ hd.le.not_gt]

/-- Settles O50: the ramp by induction, the snap by the last sub-step. -/
theorem envelopeSaturates : Obligations.EnvelopeSaturates := by
  unfold Obligations.EnvelopeSaturates
  rintro c p sr k _ hk hmode rfl j
  obtain ⟨-, -, -, -, had⟩ := hk
  exact ⟨fun hd => iterate_adV_of_positive_step hmode hd had j,
    fun hd hj => iterate_adV_of_zero_step hmode hd hj⟩

end Envelope

/-! ### The VCO's toggle (41_oscillators.md rule R152) -/

/-- Below the ceiling the flip-flop cannot rise. -/
theorem vcoFfNext_false_of_below {ceiling v : Voltage} (h : ¬ v ≥ ceiling) :
    vcoFfNext c ceiling v false = false := by
  by_cases hmin : v ≤ c.vco.min
  · exact vcoFfNext_of_le_min h hmin
  · exact vcoFfNext_of_between h hmin

/-- The toggle's condition is the flip-flop's rising transition. -/
theorem vcoAltNext_ne_iff {ceiling v : Voltage} {ff alt : Bool} :
    vcoAltNext ceiling v ff alt ≠ alt ↔ ff = false ∧ vcoFfNext c ceiling v ff = true := by
  cases ff with
  | true => simp [vcoAltNext_of_set]
  | false =>
    by_cases h : v ≥ ceiling
    · simp [vcoAltNext_of_rising h, vcoFfNext_of_ge_ceiling h]
    · simp [vcoAltNext_of_below h, vcoFfNext_false_of_below h]

/-- Settles O52: stage 3 takes both from the same comparison. -/
theorem vcoAltTogglesOnRisingEdgesOnly : Obligations.VcoAltTogglesOnRisingEdgesOnly := by
  unfold Obligations.VcoAltTogglesOnRisingEdgesOnly
  rintro c p sr k _ rfl
  rw [nextCircuit, substep_vcoAlt, substep_vcoFf]
  exact vcoAltNext_ne_iff

/-! ### Unset components (40_rate_computer.md rule R111; 41_oscillators.md rule R153) -/

section Unset

/-- A capacitor whose steps are 0 stays where it is. -/
theorem moveCapacitor_zero {r : VoltageRange} {v : ℚ} (hv : r.min ≤ v ∧ v ≤ r.max) (b : Bool) :
    moveCapacitor r b v 0 0 = v := by
  obtain ⟨hmin, hmax⟩ := hv
  have hstay : clamp v r.min r.max = v := clamp_of_mem hmin hmax
  cases b <;> simpa [moveCapacitor] using hstay

theorem runUpdate_osV_of_unset (hk : k.InRange c) (hr : p.osRes.val = 0) (hc : p.osCap.val = 0) :
    (runUpdate c p sr k).1.osV = k.osV := by
  obtain ⟨hrange, -⟩ := hk
  have hchg : (computeSteps c p sr).osChg = 0 := stepOf_rate_of_unset sr c.fOsChg hr hc
  have hdis : (computeSteps c p sr).osDis = 0 := stepOf_rate_of_unset sr c.fOsDis hr hc
  refine runUpdate_keeps (P := fun t => t.osV = k.osV) (fun t ht => ?_) rfl
  rw [nextCircuit, substep_osV, osMove, hchg, hdis, ht, moveCapacitor_zero hrange]
  exact withOverride_fst (P := (· = k.osV)) rfl rfl

theorem runUpdate_slfV_of_unset (hk : k.InRange c) (hr : p.slfRes.val = 0)
    (hc : p.slfCap.val = 0) : (runUpdate c p sr k).1.slfV = k.slfV := by
  obtain ⟨-, hrange, -⟩ := hk
  have hchg : (computeSteps c p sr).slfChg = 0 := stepOf_rate_of_unset sr c.fSlfChg hr hc
  have hdis : (computeSteps c p sr).slfDis = 0 := stepOf_rate_of_unset sr c.fSlfDis hr hc
  refine runUpdate_keeps (P := fun t => t.slfV = k.slfV) (fun t ht => ?_) rfl
  rw [nextCircuit, substep_slfV, slfMove, hchg, hdis, ht, moveCapacitor_zero hrange]
  exact withOverride_fst (P := (· = k.slfV)) rfl rfl

theorem runUpdate_nfV_of_unset (hk : k.InRange c) (hr : p.noiseFilterRes.val = 0)
    (hc : p.noiseFilterCap.val = 0) : (runUpdate c p sr k).1.nfV = k.nfV := by
  obtain ⟨-, -, -, hrange, -⟩ := hk
  have hchg : (computeSteps c p sr).nfChg = 0 := stepOf_rate_of_unset sr c.fNfChg hr hc
  have hdis : (computeSteps c p sr).nfDis = 0 := stepOf_rate_of_unset sr c.fNfDis hr hc
  refine runUpdate_keeps (P := fun t => t.nfV = k.nfV) (fun t ht => ?_) rfl
  have hmove : (nextCircuit c p sr t).nfV = moveCapacitor c.nf
      (rawBit (nextCircuit c p sr t).rng) t.nfV (computeSteps c p sr).nfChg
      (computeSteps c p sr).nfDis := rfl
  rw [hmove, hchg, hdis, ht, moveCapacitor_zero hrange]

/-- A zero step snaps the envelope to an extreme, whatever its direction. -/
theorem runUpdate_adV_of_unset (ha : p.attackRes.val = 0) (hd : p.decayRes.val = 0)
    (hc : p.adCap.val = 0) :
    (runUpdate c p sr k).1.adV = c.ad.max ∨ (runUpdate c p sr k).1.adV = c.ad.min := by
  have hchg : (computeSteps c p sr).adChg = 0 := stepOf_rate_of_unset sr c.fAdChg ha hc
  have hdis : (computeSteps c p sr).adDis = 0 := stepOf_rate_of_unset sr c.fAdDis hd hc
  rw [runUpdate_eq_substep, substep_adV]
  generalize envCharging _ _ _ _ = charging
  cases charging with
  | true => exact .inl (envMove_attack_snap _ _ hchg.le.not_gt)
  | false => exact .inr (envMove_decay_snap _ _ hdis.le.not_gt)

/-- An unset VCO stays, unless it is charging and the ceiling is below it. -/
theorem vcoUpdated_of_zero_steps {st : Steps} {ceiling : Voltage}
    (hk : c.vco.min ≤ k.vcoV ∧ k.vcoV ≤ c.vco.max) (hchg : st.vcoChg = 0) (hdis : st.vcoDis = 0)
    (h : k.vcoV ≤ ceiling ∨ k.vcoFf = true) : vcoUpdated c st ceiling k = k.vcoV := by
  obtain ⟨hmin, hmax⟩ := hk
  have hstay : clamp k.vcoV c.vco.min c.vco.max = k.vcoV := clamp_of_mem hmin hmax
  unfold vcoUpdated
  rw [hchg, hdis, add_zero, sub_zero]
  split
  next hff =>
    have hle : k.vcoV ≤ ceiling := h.resolve_right (hff ▸ Bool.false_ne_true)
    rw [min_eq_left hle, hstay]
  next => exact hstay

theorem vcoUpdated_of_ceiling_below {st : Steps} {ceiling : Voltage} (hmax : k.vcoV ≤ c.vco.max)
    (hchg : st.vcoChg = 0) (hlt : ceiling < k.vcoV) (hff : k.vcoFf = false) :
    vcoUpdated c st ceiling k = max ceiling c.vco.min := by
  rw [vcoUpdated, if_pos hff, hchg, add_zero, min_eq_right hlt.le,
    clamp_eq_max (hlt.le.trans hmax) c.vco.min_le_max]

/-- Settles O53: in an UPDATE stage by stage, in a sub-step by the three reasons an unset VCO stays.
-/
theorem unsetComponentsStandStill : Obligations.UnsetComponentsStandStill := by
  unfold Obligations.UnsetComponentsStandStill
  constructor
  · intro n s t hk h
    obtain rfl : s.updated Config.cfg = t := Host.Outcome.next.inj h
    exact ⟨fun ⟨hr, hc⟩ => runUpdate_osV_of_unset hk hr hc,
      fun ⟨hr, hc⟩ => runUpdate_slfV_of_unset hk hr hc,
      fun ⟨hr, hc⟩ => runUpdate_nfV_of_unset hk hr hc,
      fun ⟨ha, hd, hc⟩ => runUpdate_adV_of_unset ha hd hc⟩
  · rintro c p sr k _ hk hr hc rfl ceiling hceiling
    obtain ⟨-, -, ⟨hmin, hmax⟩, -⟩ := hk
    obtain rfl : ceiling = substepCeiling c p (computeSteps c p sr) k :=
      hceiling.trans (substepCeiling_eq c p _ k sr (noiseFreq c p)).symm
    obtain ⟨hchg, hdis⟩ := computeSteps_vco_of_unset c sr hr hc
    rw [nextCircuit, substep_vcoV, vcoMove_fst_eq]
    constructor
    · intro hstay
      split
      next hoff =>
        refine vcoUpdated_of_zero_steps ⟨hmin, hmax⟩ hchg hdis ?_
        exact hstay.imp_right fun h => h.resolve_right (ne_true_of_eq_false hoff)
      next => rfl
    · rintro ⟨hlt, hff, (hoff : p.vcoOverride = false)⟩
      rw [if_pos hoff, vcoUpdated_of_ceiling_below hmax hchg hlt hff]

end Unset

end Sys2Proof.Machine
end

section
/-! PROOFS. The sample's value (44_mixer_output.md section 3): `trunc`, the rescaling, silence with
the output disabled, and the range. -/

namespace Sys2Proof.Machine

/-! ### `trunc` (00_scope.md rule R17) -/

section Trunc

variable {x y : ℚ}

theorem trunc_of_nonneg (h : 0 ≤ x) : trunc x = ⌊x⌋ := if_pos h

theorem trunc_of_nonpos (h : x ≤ 0) : trunc x = ⌈x⌉ := by
  rcases h.lt_or_eq with hneg | rfl
  · exact if_neg hneg.not_ge
  · simp

@[simp] theorem trunc_intCast (n : ℤ) : trunc (n : ℚ) = n := by
  simp [trunc]

theorem trunc_mono (h : x ≤ y) : trunc x ≤ trunc y := by
  rcases le_total 0 x with hx | hx
  · rw [trunc_of_nonneg hx, trunc_of_nonneg (hx.trans h)]
    exact Int.floor_le_floor h
  · rcases le_total 0 y with hy | hy
    · rw [trunc_of_nonpos hx, trunc_of_nonneg hy]
      exact (Int.ceil_le.mpr (by simpa using hx)).trans (Int.floor_nonneg.mpr hy)
    · rw [trunc_of_nonpos hx, trunc_of_nonpos hy]
      exact Int.ceil_le_ceil h

/-- Settles O30: on each side of 0 the rounding that goes toward it. -/
theorem truncRoundsTowardZero : Obligations.TruncRoundsTowardZero := by
  unfold Obligations.TruncRoundsTowardZero
  refine fun x => ⟨fun h => ?_, fun h => ?_⟩
  · rw [trunc_of_nonneg h]
    exact ⟨Int.floor_nonneg.mpr h, Int.floor_le x, Int.lt_floor_add_one x⟩
  · rw [trunc_of_nonpos h]
    exact ⟨Int.ceil_le.mpr (by simpa using h), Int.le_ceil x,
      sub_lt_iff_lt_add.mpr (Int.ceil_lt_add_one x)⟩

end Trunc

/-! ### The rescaling (rule R208) -/

section Rescale

variable (c : Config)

theorem outCenter_sub_outClipLow_pos : 0 < c.outCenter - c.outClipLow :=
  sub_pos.mpr c.outClipLow_lt_outCenter

theorem rescale_mono {v w : Voltage} (h : v ≤ w) : rescale c v ≤ rescale c w := by
  have hdiv : (v - c.outClipLow) / (c.outCenter - c.outClipLow) ≤
      (w - c.outClipLow) / (c.outCenter - c.outClipLow) :=
    div_le_div_of_nonneg_right (by linarith) (outCenter_sub_outClipLow_pos c).le
  exact mul_le_mul_of_nonneg_right (by linarith) (Nat.cast_nonneg _)

theorem sampleOf_mono {v w : Voltage} (h : v ≤ w) : sampleOf c v ≤ sampleOf c w :=
  trunc_mono (rescale_mono c h)

theorem sampleOf_outCenter : sampleOf c c.outCenter = 0 := by
  rw [sampleOf, rescale, div_self (outCenter_sub_outClipLow_pos c).ne', sub_self, zero_mul,
    trunc_zero]

theorem sampleOf_outClipLow : sampleOf c c.outClipLow = -((c.fullScale : ℕ) : ℤ) := by
  have hlow : rescale c c.outClipLow = ((-((c.fullScale : ℕ) : ℤ) : ℤ) : ℚ) := by
    rw [rescale, sub_self, zero_div]
    push_cast
    ring
  rw [sampleOf, hlow, trunc_intCast]

end Rescale

/-! ### Silence and the range (rules R203, R210, R211) -/

/-- With the output disabled the gate is shut, whatever the rest of the state. -/
theorem outputActive_of_disabled {c : Config} {p : Params} (h : p.enableN = true)
    (vcoEff : Voltage) : outputActive c p vcoEff = false := by
  simp [outputActive, h]

/-- Settles O54: the shut gate gives the centre, whose sample is 0. -/
theorem disabledOutputIsSilent : Obligations.DisabledOutputIsSilent := by
  unfold Obligations.DisabledOutputIsSilent
  intro n s h
  refine ⟨s.updated Config.cfg, exec_update n s, rfl, ?_⟩
  obtain ⟨vcoEff, bit, idx, hsample⟩ :=
    runUpdate_sample Config.cfg s.params s.sampleRate s.circuit
  rw [outputActive_of_disabled h, outputVoltage_inactive, sampleOf_outCenter] at hsample
  exact hsample

/-- With every gain on its branch's side of the centre, the other clip level is never passed. -/
theorem outputVoltage_mem_clip {c : Config}
    (h : ∀ i : Fin 45, 0 ≤ c.peakGain * c.posGain.get i ∧ c.peakGain * c.negGain.get i ≤ 0)
    (active bit : Bool) (idx : Fin 45) :
    c.outClipLow ≤ outputVoltage c active bit idx ∧
      outputVoltage c active bit idx ≤ c.outClipHigh := by
  obtain ⟨hpos, hneg⟩ := h idx
  have hlow := c.outClipLow_lt_outCenter
  have hhigh := c.outCenter_le_outClipHigh
  match active, bit with
  | false, _ => exact ⟨hlow.le, hhigh⟩
  | true, true =>
    rw [outputVoltage_active, activeVout_positive]
    exact ⟨le_min (by linarith) (by linarith), min_le_right _ _⟩
  | true, false =>
    rw [outputVoltage_active, activeVout_negative]
    exact ⟨le_max_right _ _, max_le (by linarith) (by linarith)⟩

/-- Settles O55: the sample is monotone in the output voltage, and the clip levels bound that. -/
theorem sampleBounds : Obligations.SampleBounds := by
  unfold Obligations.SampleBounds
  intro c p sr k h
  obtain ⟨vcoEff, bit, idx, hsample⟩ := runUpdate_sample c p sr k
  obtain ⟨hlow, hhigh⟩ := outputVoltage_mem_clip h (outputActive c p vcoEff) bit idx
  rw [hsample, ← sampleOf_outClipLow, ← sampleOf_eq]
  exact ⟨sampleOf_mono c hlow, sampleOf_mono c hhigh⟩

end Sys2Proof.Machine
end
